-- ==== Sys2Proof/Word.lean ====
section
/-!
DEFINITION. The words of the VHP block: the byte (00_scope.md R8), the 16-bit big-endian field and the 12-bit percent.
Every value is unsigned (R8).
-/

namespace Sys2Proof

/-- A byte, an 8-bit unsigned value; bit 0 is the least significant bit (R8). -/
abbrev Byte := BitVec 8

/-- The value of a two-byte field (R48). -/
abbrev Half := BitVec 16

/-- The width of `power_level_percent`, 0 .. 2550 (R81). -/
abbrev Percent := BitVec 12

end Sys2Proof
end

