-- ==== Sys2Proof/Config.lean ====
section
/-!
DEFINITION. What an implementation fixes: the build parameters of 00_scope.md R6, the protocol's fixed constants of R7,
the consumer-side parameters, and the one free value of the model (the bytes of TX.FRAME where the spec leaves them
unspecified, 93_implementation_defined.md U3).
-/

namespace Sys2Proof

/-- The build-time parameters of the block (R6). They are fixed when the block is built; State carries the build it
belongs to and no operation writes it (notes/assumptions/1.md), so a statement over all states covers every build. -/
structure Build where
  /-- IBT: a frame closes when the elapsed time is strictly greater than this. -/
  ibt : Nat
  /-- TS_W: the width in bits of `now` and of FB.LAST_TS. -/
  tsW : Nat
  /-- BUF_DEPTH: the number of byte cells of FB.BUF. -/
  bufDepth : Nat
  /-- LEN_W: the width in bits of FB.LEN and DEC.LEN. -/
  lenW : Nat
  /-- VERIFY_CSUM: whether a wrong checksum byte makes a Short or Long frame Unknown. -/
  verifyCsum : Bool
  deriving DecidableEq, Repr

/-- The default of every parameter (R6): IBT 10, TS_W 32, BUF_DEPTH 56, LEN_W 16, VERIFY_CSUM 0. -/
def Build.standard : Build :=
  { ibt := 10, tsW := 32, bufDepth := 56, lenW := 16, verifyCsum := false }

/-- The largest value of the length counter, 2^LEN_W - 1, at which FB.LEN saturates (R22). -/
def Build.lenMax (b : Build) : Nat := 2 ^ b.lenW - 1

/-- The ranges R6 gives the parameters. -/
abbrev Build.Legal (b : Build) : Prop :=
  1 ≤ b.tsW ∧ b.ibt < 2 ^ b.tsW ∧ 56 ≤ b.bufDepth ∧ b.bufDepth ≤ b.lenMax

/-- SHORT_LEN, the length of a Short frame (R7, 90_conflicts.md C1). -/
def Config.shortLen : Nat := 16

/-- LONG_LEN, the length of a Long frame (R7). -/
def Config.longLen : Nat := 56

/-- The value of the length field of a Short frame (R7). -/
def Config.shortField : Byte := 0x0B

/-- The value of the length field of a Long frame (R7). -/
def Config.longField : Byte := 0x33

/-- The sync byte the encoder writes at offset 0 (R7). -/
def Config.syncByte : Byte := 0xAA

/-- The device id the encoder writes at offset 1 (R7). -/
def Config.deviceId : Byte := 0x66

/-- The two divisors HX_TEMP_DIV may have; the spec leaves the choice OPEN (R6, 90_conflicts.md C8). -/
inductive HxDivisor where
  | ten
  | hundred
  deriving DecidableEq, Repr

/-- The OPEN consumer-side parameters of R6. No rule of the block reads them. -/
structure ConsumerParams where
  /-- HX_TEMP_DIV. -/
  hxTempDiv : HxDivisor
  /-- HX_TEMP_SIGNED. -/
  hxTempSigned : Bool
  deriving DecidableEq, Repr

/-- FREE VALUE (notes/assumptions/3.md): what TX.FRAME holds at the end of a cycle without ENCODE_SHORT, which R42
leaves unspecified. The argument is the counter `State.freeCtr`. Nothing constrains the value. -/
opaque Config.freeTxFrame : Nat → Vector Byte 16

end Sys2Proof
end

