-- ==== Sys2Proof/Syntax.lean ====
section
/-!
DEFINITION. The instructions of the VHP block, one constructor per row of spec/opcode_table.json (30_encoding.md R86):
the five operation-strobe rows, each the whole of one clock cycle, and the three wire-frame rows, each the frame POLL hands
to DECODE. With them the input ports of R61, whose values are what an operation row is decoded from.
-/

namespace Sys2Proof

/-- The operands of ENCODE_SHORT: `enc_cmd`, `enc_state` and `enc_power` (R61, R135). -/
structure EncArgs where
  cmd : Byte
  state : Byte
  power : Byte
  deriving DecidableEq, Repr

/-- The input ports of one clock cycle (R61). `now` is the host's time reading: the TS_W-bit port carries its TS_W low
bits (DEDUCED from 95_test_vectors.md V3.7, notes/assumptions/6.md). -/
structure Ports where
  rst : Bool
  encReq : Bool
  pollReq : Bool
  rxValid : Bool
  rxByte : Byte
  now : Nat
  encCmd : Byte
  encState : Byte
  encPower : Byte
  deriving DecidableEq, Repr

/-- The ports of a cycle in which the host presents nothing. -/
def Ports.idle : Ports :=
  { rst := false, encReq := false, pollReq := false, rxValid := false, rxByte := 0, now := 0,
    encCmd := 0, encState := 0, encPower := 0 }

/-- The 16 bytes of a Short frame but its length field, which is 0x0B (R73). -/
structure ShortWire where
  sync : Byte
  device : Byte
  disc : Byte
  pad4 : Byte
  pad5 : Byte
  pad6 : Byte
  pad7 : Byte
  power : Byte
  stateCode : Byte
  pad10 : Byte
  pad11 : Byte
  pad12 : Byte
  pad13 : Byte
  pad14 : Byte
  csum : Byte
  deriving DecidableEq, Repr

/-- The 56 bytes of a Long frame but its length field, which is 0x33 (R74). The gaps are the offsets that carry no field
the source names (R75): 7 .. 10, 12, 18 .. 19, 22, 30 .. 51 and 54. The two-byte fields are their big-endian values. -/
structure LongWire where
  sync : Byte
  device : Byte
  disc : Byte
  heaterEn : Byte
  opState : Byte
  power : Byte
  gap7 : List Byte
  vin : Byte
  gap12 : Byte
  gpCurrent : Byte
  cooling : Byte
  fanV : Byte
  hxTemp : Half
  gap18 : Byte
  gap19 : Byte
  stateDur : Half
  gap22 : Byte
  pump : Byte
  gpVoltage : Byte
  gpCurrent2 : Byte
  gpTemp : Byte
  rsvd27 : Byte
  fanRpm : Half
  gap30 : List Byte
  rsvd52 : Half
  gap54 : Byte
  csum : Byte
  deriving DecidableEq, Repr

/-- The instructions. An operation row carries the operations that share its cycle (the table's "combines" entries): a
cycle that carries several operations is the instruction of the one R156 runs first, with the others as operands
(DESIGN CHOICE, notes/assumptions/7.md). -/
inductive Instr where
  /-- NOP: a cycle with no strobe (R65). -/
  | nop
  /-- RX_BYTE without POLL, with ENCODE_SHORT in the same cycle when `enc` is given (R97). -/
  | rxByte (byte : Byte) (now : Nat) (enc : Option EncArgs)
  /-- POLL, with RX_BYTE of the byte `rx` and ENCODE_SHORT in the same cycle when given; RX_BYTE sees the same `now`
  (R102, R63). -/
  | poll (now : Nat) (rx : Option Byte) (enc : Option EncArgs)
  /-- ENCODE_SHORT alone (R134). -/
  | encodeShort (args : EncArgs)
  /-- RESET: a cycle with `rst = 1`, whatever the strobes are (R168). -/
  | reset
  /-- A Short frame handed to DECODE by the POLL that emits it (R114). -/
  | shortFrame (w : ShortWire)
  /-- A Long frame handed to DECODE by the POLL that emits it (R118). -/
  | longFrame (w : LongWire)
  /-- A frame of no recognised shape handed to DECODE: its bytes in offset order (R111). -/
  | unknownFrame (bytes : List Byte)
  deriving DecidableEq, Repr

/-- What the decoder is given: the ports of a cycle (interface encoding) or the bytes of a closed frame in offset order
(wire encoding). -/
inductive Item where
  | cycle (p : Ports)
  | frame (bytes : List Byte)
  deriving DecidableEq, Repr

end Sys2Proof
end

