-- ==== Sys2Proof/WellFormed.lean ====
section
/-!
DEFINITION. Which instructions the encodings of 30_encoding.md can carry: a time-stamp must fit the TS_W-bit port, the gaps
of a Long frame must have their widths, and an Unknown frame must not be of a recognised shape.
-/

namespace Sys2Proof

/-- Whether a frame's bytes have the Short or the Long shape: length field and length jointly (R72). -/
def knownShape (bytes : List Byte) : Bool :=
  (decide (bytes.length = Config.shortLen) && decide (bytes[3]? = some Config.shortField)) ||
    (decide (bytes.length = Config.longLen) && decide (bytes[3]? = some Config.longField))

/-- The instructions a block of build `b` can be presented. -/
def Instr.wellFormed (b : Build) : Instr → Bool
  | .nop => true
  | .rxByte _ now _ => decide (now < 2 ^ b.tsW)
  | .poll now _ _ => decide (now < 2 ^ b.tsW)
  | .encodeShort _ => true
  | .reset => true
  | .shortFrame _ => true
  | .longFrame w => decide (w.gap7.length = 4) && decide (w.gap30.length = 22)
  | .unknownFrame bytes => !knownShape bytes

end Sys2Proof
end

