-- ==== Sys2Proof/Decode.lean ====
section
/-!
DEFINITION. The decoder and, after it, the encoder of the two encodings of 30_encoding.md: the interface encoding (the strobe
vector and the operand ports of a cycle, R61 to R69) and the wire encoding (the Short and Long layouts, R72 to R74).
Both are total: every strobe pattern is defined (R67) and every byte sequence is a frame of some class (R107), so there is
no reserved encoding to refuse.
-/

namespace Sys2Proof

/-! ### The read primitives of R12 -/

/-- `rd8(F, i)`: the byte at offset i, or 0x00 out of range (R12). -/
def rd8 (F : List Byte) (i : Nat) : Byte := F.getD i 0x00

/-- `rd16be(F, i)`: the bytes at i and i+1, the lower offset the more significant; 0x0000 when either is out of range
(R12, R48). -/
def rd16be (F : List Byte) (i : Nat) : Half :=
  if i + 1 < F.length then rd8 F i ++ rd8 F (i + 1) else 0x0000

/-- The high byte of a 16-bit field, the one at the lower offset (R49). -/
def hiByte (v : Half) : Byte := v.extractLsb' 8 8

/-- The low byte of a 16-bit field, the one at the higher offset (R49). -/
def loByte (v : Half) : Byte := v.extractLsb' 0 8

/-! ### Interface encoding -/

/-- The operands ENCODE_SHORT takes from its ports (R61). -/
def Ports.encArgs (p : Ports) : EncArgs := { cmd := p.encCmd, state := p.encState, power := p.encPower }

/-- The instruction of a cycle: `rst` overrides the strobes (R68); else each strobe selects its operation (R64) and the
operation that runs first names the row (R156). -/
def decodeCycle (p : Ports) : Instr :=
  if p.rst then .reset
  else
    let enc := if p.encReq then some p.encArgs else none
    if p.pollReq then .poll p.now (if p.rxValid then some p.rxByte else none) enc
    else if p.rxValid then .rxByte p.rxByte p.now enc
    else if p.encReq then .encodeShort p.encArgs
    else .nop

/-! ### Wire encoding -/

/-- The three frame classes of R72. -/
inductive FrameClass where
  | short
  | long
  | unknown
  deriving DecidableEq, Repr

/-- The class of a frame of n bytes whose byte at offset 3 is `lf`: exact lengths (R72, R110, 90_conflicts.md C1 and C2).
A frame of 0 .. 3 bytes is Unknown whatever `lf` is. -/
def classify (n : Nat) (lf : Byte) : FrameClass :=
  if lf = Config.shortField ∧ n = Config.shortLen then .short
  else if lf = Config.longField ∧ n = Config.longLen then .long
  else .unknown

/-- The fields of a Short frame (R73). -/
def ShortWire.ofBytes (F : List Byte) : ShortWire :=
  { sync := rd8 F 0, device := rd8 F 1, disc := rd8 F 2,
    pad4 := rd8 F 4, pad5 := rd8 F 5, pad6 := rd8 F 6, pad7 := rd8 F 7,
    power := rd8 F 8, stateCode := rd8 F 9,
    pad10 := rd8 F 10, pad11 := rd8 F 11, pad12 := rd8 F 12, pad13 := rd8 F 13, pad14 := rd8 F 14,
    csum := rd8 F 15 }

/-- The fields of a Long frame (R74). -/
def LongWire.ofBytes (F : List Byte) : LongWire :=
  { sync := rd8 F 0, device := rd8 F 1, disc := rd8 F 2,
    heaterEn := rd8 F 4, opState := rd8 F 5, power := rd8 F 6,
    gap7 := (F.drop 7).take 4, vin := rd8 F 11, gap12 := rd8 F 12, gpCurrent := rd8 F 13,
    cooling := rd8 F 14, fanV := rd8 F 15, hxTemp := rd16be F 16, gap18 := rd8 F 18, gap19 := rd8 F 19,
    stateDur := rd16be F 20, gap22 := rd8 F 22, pump := rd8 F 23, gpVoltage := rd8 F 24,
    gpCurrent2 := rd8 F 25, gpTemp := rd8 F 26, rsvd27 := rd8 F 27, fanRpm := rd16be F 28,
    gap30 := (F.drop 30).take 22, rsvd52 := rd16be F 52, gap54 := rd8 F 54, csum := rd8 F 55 }

/-- The instruction a closed frame stands for (R72). UNKNOWN_FRAME is the row of lowest priority: the one taken when
neither shape matches. -/
def decodeWire (F : List Byte) : Instr :=
  match classify F.length (rd8 F 3) with
  | .short => .shortFrame (ShortWire.ofBytes F)
  | .long => .longFrame (LongWire.ofBytes F)
  | .unknown => .unknownFrame F

/-- The decoder. -/
def decode : Item → Instr
  | .cycle p => decodeCycle p
  | .frame F => decodeWire F

/-! ### The encoder -/

/-- The 16 bytes of a Short frame in offset order (R73). -/
def ShortWire.bytes (w : ShortWire) : List Byte :=
  [w.sync, w.device, w.disc, Config.shortField, w.pad4, w.pad5, w.pad6, w.pad7,
   w.power, w.stateCode, w.pad10, w.pad11, w.pad12, w.pad13, w.pad14, w.csum]

/-- The 56 bytes of a Long frame in offset order (R74). -/
def LongWire.bytes (w : LongWire) : List Byte :=
  [w.sync, w.device, w.disc, Config.longField, w.heaterEn, w.opState, w.power]
    ++ w.gap7
    ++ [w.vin, w.gap12, w.gpCurrent, w.cooling, w.fanV, hiByte w.hxTemp, loByte w.hxTemp, w.gap18, w.gap19,
        hiByte w.stateDur, loByte w.stateDur, w.gap22, w.pump, w.gpVoltage, w.gpCurrent2, w.gpTemp, w.rsvd27,
        hiByte w.fanRpm, loByte w.fanRpm]
    ++ w.gap30
    ++ [hiByte w.rsvd52, loByte w.rsvd52, w.gap54, w.csum]

/-- `p` with ENCODE_SHORT requested when operands are given. -/
def Ports.withEnc (p : Ports) : Option EncArgs → Ports
  | none => p
  | some a => { p with encReq := true, encCmd := a.cmd, encState := a.state, encPower := a.power }

/-- `p` with RX_BYTE requested when a byte is given. -/
def Ports.withRx (p : Ports) : Option Byte → Ports
  | none => p
  | some b => { p with rxValid := true, rxByte := b }

/-- The encoding of an instruction, the ports it does not use at 0. -/
def encode : Instr → Item
  | .nop => .cycle Ports.idle
  | .rxByte b now enc => .cycle ((({ Ports.idle with now := now } : Ports).withRx (some b)).withEnc enc)
  | .poll now rx enc => .cycle ((({ Ports.idle with now := now, pollReq := true } : Ports).withRx rx).withEnc enc)
  | .encodeShort a => .cycle (Ports.idle.withEnc (some a))
  | .reset => .cycle { Ports.idle with rst := true }
  | .shortFrame w => .frame w.bytes
  | .longFrame w => .frame w.bytes
  | .unknownFrame F => .frame F

/-! ### The opcode table -/

/-- The selector of an item, which a row of the table matches against: the vector `{rst, enc_req, poll_req, rx_valid}` of
a cycle, or the byte F[3] of a frame (R86). -/
def Item.selector : Item → BitVec 8
  | .cycle p => BitVec.ofNat 8 (8 * p.rst.toNat + 4 * p.encReq.toNat + 2 * p.pollReq.toNat + p.rxValid.toNat)
  | .frame F => rd8 F 3

/-- Whether an item is a frame (format `wire-frame`) or a cycle (format `op-strobe`). -/
def Item.isFrame : Item → Bool
  | .cycle _ => false
  | .frame _ => true

/-- A row of spec/opcode_table.json: its format, mask and match. -/
structure TableRow where
  wire : Bool
  mask : BitVec 8
  pattern : BitVec 8
  deriving DecidableEq, Repr

/-- Whether an item is one the row describes. -/
def TableRow.accepts (r : TableRow) (x : Item) : Bool :=
  decide (r.wire = x.isFrame) && decide (x.selector &&& r.mask = r.pattern)

/-- The row of each instruction, copied from the table. -/
def Instr.row : Instr → TableRow
  | .nop => { wire := false, mask := 0b1111, pattern := 0b0000 }
  | .rxByte _ _ _ => { wire := false, mask := 0b1001, pattern := 0b0001 }
  | .poll _ _ _ => { wire := false, mask := 0b1010, pattern := 0b0010 }
  | .encodeShort _ => { wire := false, mask := 0b1100, pattern := 0b0100 }
  | .reset => { wire := false, mask := 0b1000, pattern := 0b1000 }
  | .shortFrame _ => { wire := true, mask := 0xFF, pattern := 0x0B }
  | .longFrame _ => { wire := true, mask := 0xFF, pattern := 0x33 }
  | .unknownFrame _ => { wire := true, mask := 0x00, pattern := 0x00 }

/-- The ports of a cycle whose strobe vector is the low four bits of w, every operand port 0. -/
def Ports.ofVector (w : Nat) : Ports :=
  { Ports.idle with rst := w.testBit 3, encReq := w.testBit 2, pollReq := w.testBit 1, rxValid := w.testBit 0 }

/-- A frame of n bytes whose byte at offset 3 is w's low byte and whose other bytes are 0. -/
def frameOfSelector (n w : Nat) : List Byte :=
  [0x00, 0x00, 0x00, BitVec.ofNat 8 w] ++ List.replicate (n - 4) 0x00

/-- What a word of the opcode table stands for (notes/assumptions/9.md). The table numbers the four bits of the strobe
vector, or the eight bits of F[3], in one byte; a wire row gives the frame's length beside the byte, not in it. A word of
more than one byte is a SHORT_FRAME word (the table gives that row a length position above its selector); a one-byte word
below 32 is a strobe vector; another one-byte word is a selector, of a Long frame if it is 0x33; a word of no bits is the
UNKNOWN_FRAME row, whose mask fixes none. -/
def tableItem (nbits w : Nat) : Item :=
  if nbits = 0 then .frame (frameOfSelector 4 0)
  else if nbits ≤ 8 then
    if w < 32 then .cycle (Ports.ofVector w)
    else if w = 0x33 then .frame (frameOfSelector Config.longLen w)
    else .frame (frameOfSelector 4 w)
  else .frame (frameOfSelector Config.shortLen w)

/-- The instruction the decoder reads from a word of the opcode table. -/
def decodeTableWord (nbits w : Nat) : Option Instr := some (decode (tableItem nbits w))

end Sys2Proof
end

