-- ==== Sys2Proof/Machine/Checksum.lean ====
section
/-!
DEFINITION. The checksum of 40_checksum.md: the one primitive the receive and the transmit path share.
-/

namespace Sys2Proof.Machine

/-- The sum of a list of bytes in the 32-bit unsigned accumulator of R87. -/
def sum32 (l : List Byte) : BitVec 32 := l.foldl (fun s b => s + b.setWidth 32) 0

/-- The bytes the checksum sums: offsets [2, len - 1) (R87). -/
def summedBytes (F : List Byte) : List Byte := (F.take (F.length - 1)).drop 2

/-- CHECKSUM (R87): 0x00 below four bytes, else the low byte of the sum of offsets [2, len - 1). -/
def checksum (F : List Byte) : Byte :=
  if F.length < 4 then 0x00 else (sum32 (summedBytes F)).setWidth 8

/-- The sum mod 256 of the bytes at offset 2 or more, the last one included: what CS.ACC holds (R26). -/
def sumFrom2 (F : List Byte) : Byte := (F.drop 2).foldl (fun s b => s + b) 0x00

/-- One update of the accumulator by a byte received at offset n (R91). -/
def accUpdate (n : Nat) (acc b : Byte) : Byte := if 2 ≤ n then acc + b else acc

/-- The accumulator form of the checksum (R90), from FB.LEN, CS.ACC and FB.LAST_BYTE. -/
def checksumAcc (len : Nat) (acc lastByte : Byte) : Byte := if len < 4 then 0x00 else acc - lastByte

end Sys2Proof.Machine
end

