-- ==== Sys2Proof/Machine/State.lean ====
section
/-!
DEFINITION. The state of the VHP block as plain data (10_state.md R22 to R43), the reasons a step could stop, and the state
after reset. The groups keep the spec's names: FB, CS.ACC, DEC, SNAP, EV, TX.FRAME. Four fields are the model's own and no
register of the block: `FB.nbytes` (the spec's ghost FB.NBYTES, R27), `DEC.shortSeen` (R177), `inputs` and `freeCtr`.
-/

namespace Sys2Proof.Machine

/-- The DecodedFrame variants (R29, R79). The code 3 that is never written has no constructor (U6,
notes/assumptions/11.md). -/
inductive FrameTag where
  | unknown
  | short
  | long
  deriving DecidableEq, Repr

/-- The error kinds (R31, R150). -/
inductive ErrKind where
  /-- None: a Short or a Long frame was decoded. -/
  | noError
  | emptyFrame
  | frameTooShortToClassify
  | unrecognizedFrameShape
  /-- Never produced (R123); kept because R150 keeps its code. -/
  | fieldOutOfRange
  | checksumMismatch
  deriving DecidableEq, Repr

/-- The requested commands of a Short frame (R35, R77). -/
inductive ReqCommand where
  | off
  | setOff
  | setOn
  | running
  | unknown
  deriving DecidableEq, Repr

/-- The operating states of the heater, HeaterOperatingState (R37, R78). -/
inductive OpState where
  | off
  | glowPlugPreheat
  | ignited
  | stableCombustion
  | stoppingCooling
  | unknown
  deriving DecidableEq, Repr

/-- A memory: its cells at rising addresses, none holding 0x00, which is what an unlisted cell reads as
(notes/assumptions/4.md). -/
abbrev Memory := List Host.Cell

/-- The frame buffer (R22 to R25). -/
structure FB where
  /-- FB.LEN, LEN_W bits. -/
  len : Nat
  /-- FB.BUF, the cells at offsets 0 .. BUF_DEPTH-1. -/
  buf : Memory
  /-- FB.LAST_TS, TS_W bits. -/
  lastTs : Nat
  /-- FB.LAST_BYTE. -/
  lastByte : Byte
  /-- FB.NBYTES, the spec's model-only ghost (R27): the true count of bytes of the current frame
  (notes/assumptions/12.md). -/
  nbytes : Nat
  deriving DecidableEq, Repr

/-- The last decoded frame (R28 to R35). -/
structure DEC where
  valid : Bool
  tag : FrameTag
  len : Nat
  err : ErrKind
  csumRx : Byte
  csumCalc : Byte
  csumOk : Bool
  sPowerPct : Percent
  sCmd : ReqCommand
  /-- Model-only: whether a Short frame has been decoded since reset, so that S_POWER_PCT and S_CMD hold a value (R177,
  notes/assumptions/10.md). -/
  shortSeen : Bool
  deriving DecidableEq, Repr

/-- The telemetry snapshot (R36 to R38). -/
structure SNAP where
  valid : Bool
  opState : OpState
  heaterEn : Byte
  powerPct : Percent
  vinRaw : Byte
  gpCurrent : Byte
  cooling : Byte
  fanVRaw : Byte
  hxTempRaw : Half
  stateDur : Half
  pumpRaw : Byte
  gpVoltage : Byte
  gpCurrent2 : Byte
  gpTemp : Byte
  rsvd27 : Byte
  fanRpm : Half
  rsvd52 : Half
  csumRx : Byte
  deriving DecidableEq, Repr

/-- The event outputs (R42): the pulses visible in the cycle after the operation that produces them. -/
structure EV where
  frameValid : Bool
  warn : Bool
  txValid : Bool
  deriving DecidableEq, Repr

/-- The reset value of FB: empty (R43). FB.BUF is unspecified there; nothing is listed. -/
def FB.reset : FB := { len := 0, buf := [], lastTs := 0, lastByte := 0, nbytes := 0 }

/-- The reset value of DEC: every element 0 (R43). -/
def DEC.reset : DEC :=
  { valid := false, tag := .unknown, len := 0, err := .noError, csumRx := 0, csumCalc := 0, csumOk := false,
    sPowerPct := 0, sCmd := .off, shortSeen := false }

/-- The reset value of SNAP: every element 0 (R43). -/
def SNAP.reset : SNAP :=
  { valid := false, opState := .off, heaterEn := 0, powerPct := 0, vinRaw := 0, gpCurrent := 0, cooling := 0,
    fanVRaw := 0, hxTempRaw := 0, stateDur := 0, pumpRaw := 0, gpVoltage := 0, gpCurrent2 := 0, gpTemp := 0,
    rsvd27 := 0, fanRpm := 0, rsvd52 := 0, csumRx := 0 }

/-- Every pulse 0 (R42, R43). -/
def EV.quiet : EV := { frameValid := false, warn := false, txValid := false }

/-- The state of the block. -/
structure State where
  /-- The build the block belongs to (R6); no operation writes it. -/
  build : Build
  fb : FB
  /-- CS.ACC, the checksum accumulator (R26). -/
  acc : Byte
  dec : DEC
  snap : SNAP
  ev : EV
  /-- TX.FRAME[0..15], offset 0 first (R42). -/
  txFrame : Vector Byte 16
  /-- The cycles the host has yet to present, the next one first: the block's environment, not its state
  (notes/assumptions/2.md). -/
  inputs : List Ports
  /-- The counter the free value of TX.FRAME is taken at (notes/assumptions/3.md). -/
  freeCtr : Nat
  deriving DecidableEq, Repr

/-- The block never faults: it has no traps (R158), no access fault (R56) and no illegal input (R67). There is therefore no
fault to name, and that is neither safe nor unsafe: it is what 93_implementation_defined.md says ("the block never
faults", notes/assumptions/11.md). -/
inductive Fault where
  deriving DecidableEq, Repr

/-- Why a step could be refused. -/
inductive Refusal where
  /-- Raised by an arm of `exec` whose instruction has no meaning yet: safe, since the machine stops. No arm does now. -/
  | notModelled (mnemonic : String)
  deriving DecidableEq, Repr

/-- The state right after reset of a block of the default build, with no cycle presented (R43, R168). TX.FRAME and FB.BUF,
which R43 leaves unspecified, are all 0 here (notes/assumptions/3.md and 4.md). -/
def State.reset : State :=
  { build := Build.standard, fb := FB.reset, acc := 0, dec := DEC.reset, snap := SNAP.reset, ev := EV.quiet,
    txFrame := #v[0, 0, 0, 0, 0, 0, 0, 0, 0, 0, 0, 0, 0, 0, 0, 0], inputs := [], freeCtr := 0 }

end Sys2Proof.Machine
end

