-- ==== Sys2Proof/Machine/Operands.lean ====
section
/-!
DEFINITION. How every field value is assembled from frame bytes (30_encoding.md R81), the code tables (R77 to R79), the
fields of a Short and a Long frame (42_decoder.md R114, R118), the byte layout of the encoder (43_encoder.md R134) and the
time-stamp arithmetic (41_framer.md R101).
-/

namespace Sys2Proof.Machine

/-! ### Code tables -/

/-- CMD_MAP (R115). -/
def cmdMap (b : Byte) : ReqCommand :=
  if b = 0x02 then .off
  else if b = 0x05 then .setOff
  else if b = 0x06 then .setOn
  else if b = 0x08 then .running
  else .unknown

/-- STATE_MAP (R119). -/
def stateMap (b : Byte) : OpState :=
  if b = 0x00 then .off
  else if b = 0x01 then .glowPlugPreheat
  else if b = 0x02 then .ignited
  else if b = 0x03 then .stableCombustion
  else if b = 0x04 then .stoppingCooling
  else .unknown

/-- The code of a requested command in DEC.S_CMD (R77). -/
def cmdCode : ReqCommand → BitVec 3
  | .off => 0
  | .setOff => 1
  | .setOn => 2
  | .running => 3
  | .unknown => 7

/-- The code of an operating state in SNAP.OP_STATE (R78). -/
def stateCode : OpState → BitVec 3
  | .off => 0
  | .glowPlugPreheat => 1
  | .ignited => 2
  | .stableCombustion => 3
  | .stoppingCooling => 4
  | .unknown => 7

/-- The code of a frame tag in DEC.TAG (R79). -/
def tagCode : FrameTag → BitVec 2
  | .unknown => 0
  | .short => 1
  | .long => 2

/-- The code of an error kind in DEC.ERR (R150). -/
def errCode : ErrKind → BitVec 3
  | .noError => 0
  | .emptyFrame => 1
  | .frameTooShortToClassify => 2
  | .unrecognizedFrameShape => 3
  | .fieldOutOfRange => 4
  | .checksumMismatch => 5

/-! ### Fields of the frames -/

/-- power_level_percent: `zext_12(raw) * 10`, with no range check (R81). -/
def percentOf (raw : Byte) : Percent := raw.setWidth 12 * 10

/-- What a Short frame gives DEC beside the checksum byte (R114). -/
structure ShortFields where
  powerPct : Percent
  cmd : ReqCommand
  deriving DecidableEq, Repr

/-- SHORT_FIELDS (R114). -/
def shortFields (F : List Byte) : ShortFields :=
  { powerPct := percentOf (rd8 F 8), cmd := cmdMap (rd8 F 9) }

/-- LONG_FIELDS (R118), each value in the SNAP element of R38, with SNAP.VALID set (R122). -/
def longFields (F : List Byte) : SNAP :=
  { valid := true
    heaterEn := rd8 F 4
    opState := stateMap (rd8 F 5)
    powerPct := percentOf (rd8 F 6)
    vinRaw := rd8 F 11
    gpCurrent := rd8 F 13
    cooling := rd8 F 14
    fanVRaw := rd8 F 15
    hxTempRaw := rd16be F 16
    stateDur := rd16be F 20
    pumpRaw := rd8 F 23
    gpVoltage := rd8 F 24
    gpCurrent2 := rd8 F 25
    gpTemp := rd8 F 26
    rsvd27 := rd8 F 27
    fanRpm := rd16be F 28
    rsvd52 := rd16be F 52
    csumRx := rd8 F 55 }

/-! ### The encoder's layout -/

/-- Offsets 0 .. 14 of the encoded frame, T[0..14] (R134). -/
def encodedHead (a : EncArgs) : List Byte :=
  [Config.syncByte, Config.deviceId, a.cmd, Config.shortField, 0x00, 0x00, 0x00, 0x00, a.power, a.state,
   0x00, 0x00, 0x00, 0x00, 0x00]

/-- Offset 15 of the encoded frame: the checksum of the 16-byte frame, which its own last byte never enters (R89). -/
def encodedCsum (a : EncArgs) : Byte := checksum (encodedHead a ++ [0x00])

/-- The 16 bytes ENCODE_SHORT puts in TX.FRAME (R134). -/
def encodedFrame (a : EncArgs) : Vector Byte 16 :=
  #v[Config.syncByte, Config.deviceId, a.cmd, Config.shortField, 0x00, 0x00, 0x00, 0x00, a.power, a.state,
     0x00, 0x00, 0x00, 0x00, 0x00, encodedCsum a]

/-! ### Time -/

/-- What the TS_W-bit port `now` carries of a time reading (DEDUCED, notes/assumptions/6.md). -/
def sampleTs (b : Build) (now : Nat) : Nat := now % 2 ^ b.tsW

/-- The elapsed time `now -_TS_W FB.LAST_TS`, an unsigned TS_W-bit value (R101). -/
def elapsed (b : Build) (now last : Nat) : Nat := (BitVec.ofNat b.tsW now - BitVec.ofNat b.tsW last).toNat

end Sys2Proof.Machine
end

