-- ==== Sys2Proof/Machine/Flags.lean ====
section
/-!
DEFINITION. The status bits. The block has no arithmetic flags (10_state.md R39): its computed bits are DEC.CSUM_OK (R34),
the error kind with the warning pulse (60_exceptions.md R150, R151) and the close condition of POLL (41_framer.md R102).
-/

namespace Sys2Proof.Machine

/-- DEC.CSUM_OK for a frame of n bytes (R34, R121). -/
def csumOkFlag (n : Nat) (computed rx : Byte) : Bool := decide (4 ≤ n) && decide (computed = rx)

/-- EV.WARN: set when the emitted frame's error kind is not None (R42). -/
def warnFlag (k : ErrKind) : Bool := decide (k ≠ .noError)

/-- Whether POLL at `now` closes a buffer of `len` bytes whose last byte came at `last`: non-empty and elapsed strictly
greater than IBT (R102, 90_conflicts.md C5). -/
def closes (b : Build) (len now last : Nat) : Bool := decide (len ≠ 0) && decide (b.ibt < elapsed b now last)

/-- Whether VERIFY_CSUM makes a classified frame a ChecksumMismatch (R113). -/
def mismatchFlag (b : Build) (computed rx : Byte) : Bool := b.verifyCsum && decide (computed ≠ rx)

end Sys2Proof.Machine
end

