-- ==== Sys2Proof/Machine/Decoder.lean ====
section
/-!
DEFINITION. DECODE (42_decoder.md R107 to R113): the classification of a closed frame and the extraction of its fields, over
the view of the frame that POLL can give (R102: the stored bytes, the count, the two checksum values).
-/

namespace Sys2Proof.Machine

/-- A DecodedFrame, "a tagged variant over Short(fields), Long(fields), Unknown(length)" (R15, R107). -/
inductive DecodedFrame where
  | unknown (len : Nat) (err : ErrKind)
  | short (fields : ShortFields)
  | long (fields : SNAP)
  deriving DecidableEq, Repr

/-- The tag of a decoded frame. -/
def DecodedFrame.tag : DecodedFrame → FrameTag
  | .unknown _ _ => .unknown
  | .short _ => .short
  | .long _ => .long

/-- The length a decoded frame reports (R30). -/
def DecodedFrame.len : DecodedFrame → Nat
  | .unknown n _ => n
  | .short _ => Config.shortLen
  | .long _ => Config.longLen

/-- The error kind of a decoded frame. -/
def DecodedFrame.err : DecodedFrame → ErrKind
  | .unknown _ k => k
  | .short _ => .noError
  | .long _ => .noError

/-- What DECODE reads of a frame F: its count of bytes, its bytes as far as they are stored, `cs_calc` and `cs_rx`. -/
structure FrameView where
  n : Nat
  stored : List Byte
  csCalc : Byte
  csRx : Byte
  deriving DecidableEq, Repr

/-- The view of a frame all of whose bytes are given (R107). -/
def FrameView.ofBytes (F : List Byte) : FrameView :=
  { n := F.length, stored := F, csCalc := checksum F, csRx := F.getLastD 0x00 }

/-- DECODE (R107). The length an Unknown frame reports is min(n, 2^LEN_W - 1). -/
def decodeView (b : Build) (v : FrameView) : DecodedFrame :=
  let len := min v.n b.lenMax
  if v.n = 0 then .unknown 0 .emptyFrame
  else if v.n ≤ 3 then .unknown len .frameTooShortToClassify
  else
    match classify v.n (rd8 v.stored 3) with
    | .unknown => .unknown len .unrecognizedFrameShape
    | .short =>
      if mismatchFlag b v.csCalc v.csRx then .unknown len .checksumMismatch else .short (shortFields v.stored)
    | .long =>
      if mismatchFlag b v.csCalc v.csRx then .unknown len .checksumMismatch else .long (longFields v.stored)

end Sys2Proof.Machine
end

