-- ==== Sys2Proof/Machine/Ops.lean ====
section
/-!
DEFINITION. The named operations on the state: the frame buffer's cells, the beginning of a cycle, the receipt of a byte, the
emission of a frame with DECODE's write-back, the warning, the encoder's output and reset. The block has no trap, so there is
no entry to take and none to return from (60_exceptions.md R158, R159): `State.raiseWarn` (R151) is all an error does.
-/

namespace Sys2Proof.Machine

/-! ### FB.BUF -/

/-- The byte in the cell at offset a; an unlisted cell reads as 0x00 (notes/assumptions/4.md). -/
def Memory.read : Memory → Nat → Byte
  | [], _ => 0x00
  | (b, u) :: m, a => if a = b then u else Memory.read m a

/-- The memory with the cell at offset a not listed. -/
def Memory.erase (m : Memory) (a : Nat) : Memory := m.filter (fun c => decide (c.1 ≠ a))

/-- The memory with the cell (a, v) listed before the first cell of a higher offset. -/
def Memory.insert : Memory → Nat → Byte → Memory
  | [], a, v => [(a, v)]
  | (b, u) :: m, a, v => if a < b then (a, v) :: (b, u) :: m else (b, u) :: Memory.insert m a v

/-- The memory with v in the cell at offset a, in canonical form: a cell of 0x00 is not listed. -/
def Memory.write (m : Memory) (a : Nat) (v : Byte) : Memory :=
  if v = 0x00 then m.erase a else (m.erase a).insert a v

/-- Addresses strictly rising from `lo` on and no cell of 0x00 listed. -/
def Memory.wfFrom : Nat → Memory → Bool
  | _, [] => true
  | lo, (a, v) :: m => decide (lo ≤ a) && decide (v ≠ 0x00) && Memory.wfFrom (a + 1) m

/-- The canonical form of a memory. -/
def Memory.wf (m : Memory) : Bool := Memory.wfFrom 0 m

/-- The memory that holds the bytes of a list at offsets i, i+1, … -/
def Memory.ofBytes : Nat → List Byte → Memory
  | _, [] => []
  | i, b :: l => if b = 0x00 then Memory.ofBytes (i + 1) l else (i, b) :: Memory.ofBytes (i + 1) l

/-! ### The frame in assembly -/

/-- How many bytes of the current frame have a cell: min(FB.LEN, BUF_DEPTH) (R23). -/
def State.storedCount (s : State) : Nat := min s.fb.len s.build.bufDepth

/-- The bytes of the current frame that are stored, in offset order (R23). -/
def State.storedBytes (s : State) : List Byte := (List.range s.storedCount).map s.fb.buf.read

/-- The view of the current frame that POLL hands to DECODE (R102, R88, R90). -/
def State.heldView (s : State) : FrameView :=
  { n := s.fb.len, stored := s.storedBytes, csCalc := checksumAcc s.fb.len s.acc s.fb.lastByte,
    csRx := s.fb.lastByte }

/-! ### The parts of a cycle -/

/-- The beginning of every cycle: the event pulses of the last one end, and with EV.TX_VALID the bytes of TX.FRAME
(R42). -/
def State.beginCycle (s : State) : State :=
  { s with ev := EV.quiet, txFrame := Config.freeTxFrame s.freeCtr, freeCtr := s.freeCtr + 1 }

/-- FB after a byte b received at `now` (R97). -/
def receiveFb (build : Build) (b : Byte) (now : Nat) (fb : FB) : FB :=
  { len := if fb.len < build.lenMax then fb.len + 1 else fb.len
    buf := if fb.len < build.bufDepth then fb.buf.write fb.len b else fb.buf
    lastTs := sampleTs build now
    lastByte := b
    nbytes := fb.nbytes + 1 }

/-- RX_BYTE (R97). -/
def State.receive (b : Byte) (now : Nat) (s : State) : State :=
  { s with fb := receiveFb s.build b now s.fb, acc := accUpdate s.fb.len s.acc b }

/-- `raise Warn(k)`: record the error kind and pulse EV.WARN; nothing stops (R151). -/
def State.raiseWarn (k : ErrKind) (s : State) : State :=
  { s with dec := { s.dec with err := k }, ev := { s.ev with warn := true } }

/-- `emit FrameReady(d)`: pulse EV.FRAME_VALID, with the warning when the frame has an error (R152, R121). -/
def State.frameReady (k : ErrKind) (s : State) : State :=
  let t := { s with ev := { s.ev with frameValid := true } }
  if warnFlag k then t.raiseWarn k else t

/-- DEC.S_POWER_PCT and DEC.S_CMD, with the model's own bit: only a Short frame writes them (R121). -/
def writeShort (d : DecodedFrame) (dec : DEC) : DEC :=
  match d with
  | .short f => { dec with sPowerPct := f.powerPct, sCmd := f.cmd, shortSeen := true }
  | .long _ => dec
  | .unknown _ _ => dec

/-- The DEC write-back (R121). -/
def State.writeDec (d : DecodedFrame) (v : FrameView) (s : State) : State :=
  { s with dec := writeShort d { s.dec with
      valid := true, tag := d.tag, len := d.len, err := d.err,
      csumRx := v.csRx, csumCalc := v.csCalc, csumOk := csumOkFlag v.n v.csCalc v.csRx } }

/-- The SNAP write-back: only a Long frame writes it (R122). -/
def State.writeSnap (d : DecodedFrame) (s : State) : State :=
  match d with
  | .long f => { s with snap := f }
  | .short _ => s
  | .unknown _ _ => s

/-- The buffer emptied: FB.LEN and CS.ACC are cleared, the cells and FB.LAST_TS are not (R102, R92). -/
def State.clearFrame (s : State) : State :=
  { s with fb := { s.fb with len := 0, nbytes := 0 }, acc := 0x00 }

/-- The emission of a frame: DECODE, write-back, clear and event, one transition (R102, R53). -/
def State.emit (v : FrameView) (s : State) : State :=
  let d := decodeView s.build v
  (((s.writeDec d v).writeSnap d).clearFrame).frameReady d.err

/-- POLL at `now` (R102). -/
def State.pollAt (now : Nat) (s : State) : State :=
  if closes s.build s.fb.len now s.fb.lastTs then s.emit s.heldView else s

/-- ENCODE_SHORT (R134, R153). -/
def State.encodeOut (a : EncArgs) (s : State) : State :=
  { s with txFrame := encodedFrame a, ev := { s.ev with txValid := true } }

/-- RX_BYTE when the cycle carries it. -/
def State.receiveOpt (rx : Option Byte) (now : Nat) (s : State) : State :=
  match rx with
  | none => s
  | some b => s.receive b now

/-- ENCODE_SHORT when the cycle carries it. -/
def State.encodeOpt (enc : Option EncArgs) (s : State) : State :=
  match enc with
  | none => s
  | some a => s.encodeOut a

/-- Reset (R168): every element takes its reset value. TX.FRAME, unspecified there, is a free value, and the cells of FB.BUF,
unspecified there too and written only by RX_BYTE (R23), are left (notes/assumptions/3.md and 4.md). The build and the
host's coming cycles are no element of the block. -/
def State.resetCycle (s : State) : State :=
  { State.reset with
    build := s.build
    fb := { FB.reset with buf := s.fb.buf }
    txFrame := Config.freeTxFrame s.freeCtr
    inputs := s.inputs
    freeCtr := s.freeCtr + 1 }

/-! ### What the host presents -/

/-- The ports of the next cycle: the first the host has yet to present, or an idle one (notes/assumptions/2.md). -/
def State.nextPorts (s : State) : Ports := s.inputs.headD Ports.idle

/-- The state with the next cycle taken from the host's list. -/
def State.takeCycle (s : State) : State := { s with inputs := s.inputs.tail }

/-- The state with `p` as the next cycle. -/
def State.present (p : Ports) (s : State) : State := { s with inputs := p :: s.inputs }

/-- The state whose buffer holds the bytes of F, as if all were received at time 0 (R23, R26). -/
def State.loadFrame (F : List Byte) (s : State) : State :=
  { s with
    fb := { len := min F.length s.build.lenMax, buf := Memory.ofBytes 0 (F.take s.build.bufDepth), lastTs := 0,
            lastByte := F.getLastD 0x00, nbytes := F.length }
    acc := sumFrom2 F }

/-- The ports of a cycle with POLL alone at `now`. -/
def pollPorts (now : Nat) : Ports := { Ports.idle with pollReq := true, now := now }

/-- The state in which the next cycle is the item: a cycle is presented as it stands; a frame is put in the buffer with the
POLL that closes it presented next. -/
def State.place (x : Item) (s : State) : State :=
  match x with
  | .cycle p => s.present p
  | .frame F => (s.loadFrame F).present (pollPorts (s.build.ibt + 1))

end Sys2Proof.Machine
end

