-- ==== Sys2Proof/Machine/Strobe.lean ====
section
/-!
DEFINITION. The meanings of the operation-strobe rows: NOP, RX_BYTE, POLL, ENCODE_SHORT and RESET (30_encoding.md R69). Each is
one whole clock cycle: the pulses of the last cycle end, then the operations of the cycle run in the order POLL, RX_BYTE,
ENCODE_SHORT, each seeing the writes of the ones before it (60_exceptions.md R156).
-/

namespace Sys2Proof.Machine

/-- NOP (R65). -/
def execNop (s : State) : Host.Outcome State Fault Refusal := .next s.beginCycle

/-- RX_BYTE (R97). -/
def execRxByte (b : Byte) (now : Nat) (enc : Option EncArgs) (s : State) : Host.Outcome State Fault Refusal :=
  .next ((s.beginCycle.receive b now).encodeOpt enc)

/-- POLL (R102). -/
def execPoll (now : Nat) (rx : Option Byte) (enc : Option EncArgs) (s : State) :
    Host.Outcome State Fault Refusal :=
  .next (((s.beginCycle.pollAt now).receiveOpt rx now).encodeOpt enc)

/-- ENCODE_SHORT (R134). -/
def execEncodeShort (a : EncArgs) (s : State) : Host.Outcome State Fault Refusal :=
  .next (s.beginCycle.encodeOut a)

/-- RESET (R168). -/
def execReset (s : State) : Host.Outcome State Fault Refusal := .next s.resetCycle

end Sys2Proof.Machine
end

