-- ==== Sys2Proof/Machine/WireFrame.lean ====
section
/-!
DEFINITION. The meanings of the wire-frame rows: the cycle in which POLL emits a frame of the class and DECODE runs on it
(42_decoder.md R107, R121, R122). A POLL that closes the buffer does the same with the frame in the buffer
(41_framer.md R102).
-/

namespace Sys2Proof.Machine

/-- SHORT_FRAME (R114). -/
def execShortFrame (w : ShortWire) (s : State) : Host.Outcome State Fault Refusal :=
  .next (s.beginCycle.emit (FrameView.ofBytes w.bytes))

/-- LONG_FRAME (R118). -/
def execLongFrame (w : LongWire) (s : State) : Host.Outcome State Fault Refusal :=
  .next (s.beginCycle.emit (FrameView.ofBytes w.bytes))

/-- UNKNOWN_FRAME (R108, R109, R111). Of the empty frame this is DECODE's contract alone made a cycle (DESIGN CHOICE,
notes/assumptions/7.md): POLL never emits one (R108). -/
def execUnknownFrame (F : List Byte) (s : State) : Host.Outcome State Fault Refusal :=
  .next (s.beginCycle.emit (FrameView.ofBytes F))

end Sys2Proof.Machine
end

