-- ==== Sys2Proof/Machine/Dispatch.lean ====
section
/-!
DEFINITION. The meaning of every instruction, one arm per constructor.
-/

namespace Sys2Proof.Machine

def exec (i : Instr) (s : State) : Host.Outcome State Fault Refusal :=
  match i with
  | .nop => Sys2Proof.Machine.execNop s
  | .rxByte b now enc => Sys2Proof.Machine.execRxByte b now enc s
  | .poll now rx enc => Sys2Proof.Machine.execPoll now rx enc s
  | .encodeShort a => Sys2Proof.Machine.execEncodeShort a s
  | .reset => Sys2Proof.Machine.execReset s
  | .shortFrame w => Sys2Proof.Machine.execShortFrame w s
  | .longFrame w => Sys2Proof.Machine.execLongFrame w s
  | .unknownFrame F => Sys2Proof.Machine.execUnknownFrame F s

end Sys2Proof.Machine
end

