-- ==== Sys2Proof/Machine/Step.lean ====
section
/-!
DEFINITION. One step: the next cycle the host presents is decoded and run (00_scope.md R18, R20).
-/

namespace Sys2Proof.Machine

/-- One clock cycle. -/
def step (s : State) : Host.Outcome State Fault Refusal := exec (decodeCycle s.nextPorts) s.takeCycle

/-- The state whose next step runs the instruction of a word of the opcode table (notes/assumptions/9.md). -/
def State.withFetchWord (s : State) (nbits w : Nat) : State := s.place (tableItem nbits w)

end Sys2Proof.Machine
end

