-- ==== Sys2Proof/Machine/HostView.lean ====
section
/-!
DEFINITION. What the host observes, in full: the output ports of 30_encoding.md R61, coded as R77 to R79 and R150 give, and the
same outputs read as 70_reset_and_hazards.md R177 and R178 ask a model to read them: absent where no value is held (notes/assumptions/10.md).
-/

namespace Sys2Proof.Machine

/-- The packing of `tx_frame`: byte i at bits 8i+7 : 8i, offset 0 in the low bits (R62). -/
def packTx (v : Vector Byte 16) : BitVec 128 :=
  v.toList.foldr (fun b acc => (acc <<< 8) ||| b.setWidth 128) 0

/-- The output ports of R61. FB, CS and FB.LAST_TS are not among them (R167). -/
structure Outputs where
  frameValid : Bool
  warn : Bool
  decValid : Bool
  decTag : BitVec 2
  decLen : Nat
  decErr : BitVec 3
  decCsumRx : Byte
  decCsumCalc : Byte
  decCsumOk : Bool
  decSPowerPct : Percent
  decSCmd : BitVec 3
  snapValid : Bool
  snapOpState : BitVec 3
  snapHeaterEn : Byte
  snapPowerPct : Percent
  snapVinRaw : Byte
  snapGpCurrent : Byte
  snapCooling : Byte
  snapFanVRaw : Byte
  snapHxTempRaw : Half
  snapStateDur : Half
  snapPumpRaw : Byte
  snapGpVoltage : Byte
  snapGpCurrent2 : Byte
  snapGpTemp : Byte
  snapRsvd27 : Byte
  snapFanRpm : Half
  snapRsvd52 : Half
  snapCsumRx : Byte
  txValid : Bool
  txFrame : BitVec 128
  deriving DecidableEq, Repr

/-- The values on the output ports (R61). An element that holds no value yet shows the placeholder R43 gives it; `readDec`,
`readShort` and `readSnap` are the readings without placeholders (R177). -/
def State.outputs (s : State) : Outputs :=
  { frameValid := s.ev.frameValid, warn := s.ev.warn
    decValid := s.dec.valid, decTag := tagCode s.dec.tag, decLen := s.dec.len, decErr := errCode s.dec.err
    decCsumRx := s.dec.csumRx, decCsumCalc := s.dec.csumCalc, decCsumOk := s.dec.csumOk
    decSPowerPct := s.dec.sPowerPct, decSCmd := cmdCode s.dec.sCmd
    snapValid := s.snap.valid, snapOpState := stateCode s.snap.opState, snapHeaterEn := s.snap.heaterEn
    snapPowerPct := s.snap.powerPct, snapVinRaw := s.snap.vinRaw, snapGpCurrent := s.snap.gpCurrent
    snapCooling := s.snap.cooling, snapFanVRaw := s.snap.fanVRaw, snapHxTempRaw := s.snap.hxTempRaw
    snapStateDur := s.snap.stateDur, snapPumpRaw := s.snap.pumpRaw, snapGpVoltage := s.snap.gpVoltage
    snapGpCurrent2 := s.snap.gpCurrent2, snapGpTemp := s.snap.gpTemp, snapRsvd27 := s.snap.rsvd27
    snapFanRpm := s.snap.fanRpm, snapRsvd52 := s.snap.rsvd52, snapCsumRx := s.snap.csumRx
    txValid := s.ev.txValid, txFrame := packTx s.txFrame }

/-- The fields of the last Short frame, absent until one has been decoded (R177). -/
def State.readShort (s : State) : Option ShortFields :=
  if s.dec.shortSeen then some { powerPct := s.dec.sPowerPct, cmd := s.dec.sCmd } else none

/-- What the DEC elements say of the last emitted frame (R29 to R35). S_POWER_PCT and S_CMD are an option of their own: a Long or an
Unknown frame does not write them, so DEC.VALID = 1 does not say that they hold a value (R177). -/
structure DecReading where
  tag : FrameTag
  len : Nat
  err : ErrKind
  csumRx : Byte
  csumCalc : Byte
  csumOk : Bool
  short : Option ShortFields
  deriving DecidableEq, Repr

/-- The last decoded frame, absent until the first emission after reset (R177, R28). -/
def State.readDec (s : State) : Option DecReading :=
  if s.dec.valid then
    some { tag := s.dec.tag, len := s.dec.len, err := s.dec.err, csumRx := s.dec.csumRx, csumCalc := s.dec.csumCalc,
           csumOk := s.dec.csumOk, short := s.readShort }
  else none

/-- The snapshot, absent until the first Long frame after reset (R177, R36). -/
def State.readSnap (s : State) : Option SNAP := if s.snap.valid then some s.snap else none

/-- The frame to send, defined only in the cycle in which EV.TX_VALID = 1 (R178). -/
def State.readTx (s : State) : Option (Vector Byte 16) := if s.ev.txValid then some s.txFrame else none

end Sys2Proof.Machine
end

