-- ==== Sys2Proof/Machine/Controller.lean ====
section
/-!
DEFINITION. The host of 49_host_reference.md, the source's ControlStateMachine: the software that chooses ENCODE_SHORT's
operands. It is outside the block (00_scope.md R5, R141): nothing of the block uses this file. It is kept as a named
environment, so that a statement about block and host together can be made.
-/

namespace Sys2Proof.Machine

/-- The host's own state (R142). Its values before the first Long frame are OPEN (R143, R147): no initial state is given. -/
structure Controller where
  requestedOn : Bool
  /-- 0 .. 100. -/
  requestedLevel : Nat
  lastObserved : OpState
  lastSend : Nat
  deriving DecidableEq, Repr

/-- The decision table (R144); the division truncates. DESIGN CHOICE (notes/assumptions/15.md): a level above 100, which R142 does not
allow, is divided all the same, and the quotient is taken mod 256 to fit enc_power. -/
def directive (on : Bool) (observed : OpState) (level : Nat) : Option EncArgs :=
  match on, observed with
  | false, .off => none
  | false, .stoppingCooling => some { cmd := 0x02, state := 0x02, power := 10 }
  | false, _ => some { cmd := 0x06, state := 0x05, power := 10 }
  | true, .off => some { cmd := 0x06, state := 0x06, power := BitVec.ofNat 8 (level / 10) }
  | true, _ => some { cmd := 0x02, state := 0x08, power := BitVec.ofNat 8 (level / 10) }

/-- The host's reading of the block: SNAP.OP_STATE when SNAP.VALID = 1 (R142). -/
def Controller.observe (c : Controller) (s : State) : Controller :=
  match s.readSnap with
  | none => c
  | some snap => { c with lastObserved := snap.opState }

/-- The setters (R146). -/
def Controller.setTargetOn (c : Controller) : Controller := { c with requestedOn := true }

/-- The setters (R146). -/
def Controller.setTargetOff (c : Controller) : Controller := { c with requestedOn := false }

/-- The setters (R146). DESIGN CHOICE (notes/assumptions/15.md): the spec gives the level the domain 0 .. 100 and no behaviour above it;
here any value is stored unchecked. -/
def Controller.setTargetLevel (percent : Nat) (c : Controller) : Controller :=
  if percent = c.requestedLevel then c else { c with requestedLevel := percent }

/-- The send gate: at least 1000 time units since the last send (R143; the comparison is DEDUCED, notes/assumptions/8.md). -/
def Controller.gateOpen (b : Build) (now : Nat) (c : Controller) : Bool :=
  decide (1000 ≤ elapsed b now c.lastSend)

/-- A tick (R143, R145): the operands of the ENCODE_SHORT the host presents, if any, and the host's next state. -/
def Controller.tick (b : Build) (now : Nat) (c : Controller) : Option EncArgs × Controller :=
  if c.gateOpen b now then
    match directive c.requestedOn c.lastObserved c.requestedLevel with
    | none => (none, c)
    | some a => (some a, { c with lastSend := sampleTs b now })
  else (none, c)

/-- The condition POLL_PERIOD = `period` must meet for inter-frame silences of at least `gap` units (R172). -/
abbrev PollPeriodMeets (b : Build) (period gap : Nat) : Prop := period + b.ibt + 1 ≤ gap

end Sys2Proof.Machine
end

