-- ==== Sys2Proof/Safety.lean ====
section
/-!
DEFINITION. The terms the statements use: what frame the buffer holds, the invariant of the block, which states a host can
not tell apart, and sequences of cycles.
-/

namespace Sys2Proof.Machine

/-- The block holds the frame F: F is the whole sequence of bytes received since the buffer was last emptied, however long
(R22, R23, R25 to R27). -/
structure Holds (s : State) (F : List Byte) : Prop where
  count : s.fb.len = min F.length s.build.lenMax
  ghost : s.fb.nbytes = F.length
  cells : ∀ i, i < F.length → i < s.build.bufDepth → s.fb.buf.read i = rd8 F i
  accum : s.acc = sumFrom2 F
  final : F ≠ [] → s.fb.lastByte = F.getLastD 0x00

/-- Every listed cell lies below BUF_DEPTH. -/
def bufferBounded (s : State) : Bool := s.fb.buf.all (fun c => decide (c.1 < s.build.bufDepth))

/-- A reading of DEC describes one frame: tag, length, error kind and checksum bit agree, the fields of its tag are present, and the
frame kinds POLL can not emit do not occur (R34, R150, R157). -/
def decConsistent (s : State) (d : DecReading) : Prop :=
  d.len ≤ s.build.lenMax ∧ d.csumOk = csumOkFlag d.len d.csumCalc d.csumRx ∧
  match d.tag with
  | .short => d.len = Config.shortLen ∧ d.err = .noError ∧ d.short ≠ none
  | .long => d.len = Config.longLen ∧ d.err = .noError ∧ s.readSnap ≠ none
  | .unknown =>
    (d.err = .frameTooShortToClassify ∧ 1 ≤ d.len ∧ d.len ≤ 3) ∨
    (d.err = .unrecognizedFrameShape ∧ 4 ≤ d.len) ∨
    (d.err = .checksumMismatch ∧ s.build.verifyCsum = true ∧ d.csumOk = false ∧
      (d.len = Config.shortLen ∨ d.len = Config.longLen))

/-- A percent the block can hold: a multiple of ten up to 2550 (R81). -/
def percentLegal (p : Percent) : Prop := p.toNat % 10 = 0 ∧ p.toNat ≤ 2550

/-- What holds of the block at reset and after every step. What it says of DEC and SNAP it says of their readings, never of a
placeholder (R177). -/
structure Inv (s : State) : Prop where
  buildLegal : s.build.Legal
  bufCanonical : s.fb.buf.wf = true
  bufBounded : bufferBounded s = true
  lenGhost : s.fb.len = min s.fb.nbytes s.build.lenMax
  tsWidth : s.fb.lastTs < 2 ^ s.build.tsW
  accSum : s.fb.len ≤ s.build.bufDepth → s.fb.nbytes = s.fb.len → s.acc = sumFrom2 s.storedBytes
  lastStored : 0 < s.fb.len → s.fb.len ≤ s.build.bufDepth → s.fb.nbytes = s.fb.len →
    s.fb.lastByte = s.fb.buf.read (s.fb.len - 1)
  decOne : ∀ d, s.readDec = some d → decConsistent s d
  shortPercent : ∀ f, s.readShort = some f → percentLegal f.powerPct
  snapPercent : ∀ f, s.readSnap = some f → percentLegal f.powerPct
  absentTogether : s.readDec = none → s.readShort = none ∧ s.readSnap = none
  warnWithFrame : s.ev.warn = true → s.ev.frameValid = true
  frameWithDec : s.ev.frameValid = true → ∃ d, s.readDec = some d ∧ s.ev.warn = warnFlag d.err

/-- Every cell of FB.BUF reads as before. -/
def SameCells (s t : State) : Prop := ∀ a, t.fb.buf.read a = s.fb.buf.read a

/-- The frame in assembly and the accumulator are as before: no operation of the receive path has run. -/
structure SameReceive (s t : State) : Prop where
  len : t.fb.len = s.fb.len
  nbytes : t.fb.nbytes = s.fb.nbytes
  lastTs : t.fb.lastTs = s.fb.lastTs
  lastByte : t.fb.lastByte = s.fb.lastByte
  acc : t.acc = s.acc
  cells : SameCells s t

/-- What surrounds the block is as before: its build and the cycles the host has yet to present. -/
structure SameOutside (s t : State) : Prop where
  build : t.build = s.build
  inputs : t.inputs = s.inputs

/-- The buffer is empty and the accumulator clear; the cells, FB.LAST_TS and FB.LAST_BYTE are as before (R102, R92). -/
structure BufferClosed (s t : State) : Prop where
  len : t.fb.len = 0
  nbytes : t.fb.nbytes = 0
  acc : t.acc = 0x00
  lastTs : t.fb.lastTs = s.fb.lastTs
  lastByte : t.fb.lastByte = s.fb.lastByte
  cells : SameCells s t

/-- The reset values of R43, for every element it gives one. -/
structure ResetValues (s : State) : Prop where
  fbLen : s.fb.len = 0
  fbLastTs : s.fb.lastTs = 0
  fbLastByte : s.fb.lastByte = 0
  csAcc : s.acc = 0
  decValid : s.dec.valid = false
  decTag : tagCode s.dec.tag = 0
  decLen : s.dec.len = 0
  decErr : errCode s.dec.err = 0
  decCsumRx : s.dec.csumRx = 0
  decCsumCalc : s.dec.csumCalc = 0
  decCsumOk : s.dec.csumOk = false
  decSPowerPct : s.dec.sPowerPct = 0
  decSCmd : cmdCode s.dec.sCmd = 0
  snapValid : s.snap.valid = false
  snapOpState : stateCode s.snap.opState = 0
  snapHeaterEn : s.snap.heaterEn = 0
  snapPowerPct : s.snap.powerPct = 0
  snapVinRaw : s.snap.vinRaw = 0
  snapGpCurrent : s.snap.gpCurrent = 0
  snapCooling : s.snap.cooling = 0
  snapFanVRaw : s.snap.fanVRaw = 0
  snapHxTempRaw : s.snap.hxTempRaw = 0
  snapStateDur : s.snap.stateDur = 0
  snapPumpRaw : s.snap.pumpRaw = 0
  snapGpVoltage : s.snap.gpVoltage = 0
  snapGpCurrent2 : s.snap.gpCurrent2 = 0
  snapGpTemp : s.snap.gpTemp = 0
  snapRsvd27 : s.snap.rsvd27 = 0
  snapFanRpm : s.snap.fanRpm = 0
  snapRsvd52 : s.snap.rsvd52 = 0
  snapCsumRx : s.snap.csumRx = 0
  evFrameValid : s.ev.frameValid = false
  evWarn : s.ev.warn = false
  evTxValid : s.ev.txValid = false

/-- Two states that differ only where the spec says nothing can be observed: cells that hold no byte of the current frame
(U1), FB.LAST_TS and FB.LAST_BYTE while FB.LEN = 0 (U2), and TX.FRAME while EV.TX_VALID = 0 (U3, R44). -/
structure SameObservable (s t : State) : Prop where
  build : s.build = t.build
  len : s.fb.len = t.fb.len
  nbytes : s.fb.nbytes = t.fb.nbytes
  cells : ∀ i, i < s.storedCount → s.fb.buf.read i = t.fb.buf.read i
  stamp : s.fb.len ≠ 0 → s.fb.lastTs = t.fb.lastTs
  lastByte : s.fb.len ≠ 0 → s.fb.lastByte = t.fb.lastByte
  acc : s.acc = t.acc
  dec : s.dec = t.dec
  snap : s.snap = t.snap
  ev : s.ev = t.ev
  tx : s.ev.txValid = true → s.txFrame = t.txFrame
  inputs : s.inputs = t.inputs

/-- The state a list of instructions leads to, or none where one of them stops. -/
def runAll : List Instr → State → Option State
  | [], s => some s
  | i :: l, s =>
    match exec i s with
    | .next t => runAll l t
    | .fault _ => none
    | .refused _ => none

/-- The bytes of a stream at a constant spacing d from time t0, with their time-stamps (R85). -/
def spaced (t0 d : Nat) : List Byte → List (Byte × Nat)
  | [] => []
  | b :: l => (b, t0) :: spaced (t0 + d) d l

/-- The cycles that receive bytes with their time-stamps, one RX_BYTE each (R85). -/
def receiveCycles (l : List (Byte × Nat)) : List Instr := l.map (fun x => .rxByte x.1 x.2 none)

/-- The cycles of a host that polls `n` times, every `period` units from time `first` on (R172). -/
def pollsAt (first period n : Nat) : List Instr := (List.range n).map (fun j => .poll (first + j * period) none none)

/-- The bytes an instruction receives. -/
def received : Instr → List Byte
  | .nop => []
  | .rxByte b _ _ => [b]
  | .poll _ rx _ => rx.toList
  | .encodeShort _ => []
  | .reset => []
  | .shortFrame _ => []
  | .longFrame _ => []
  | .unknownFrame _ => []

/-- The cycles go on without a silence of more than IBT: every byte and every POLL, alone or in the cycle of a byte, comes at most
IBT after the byte before it, the first after one at time `last` (R105, R173). -/
def unbroken (b : Build) : Nat → List Instr → Prop
  | _, [] => True
  | last, .nop :: l => unbroken b last l
  | last, .rxByte _ now _ :: l => elapsed b now last ≤ b.ibt ∧ unbroken b now l
  | last, .poll now none _ :: l => elapsed b now last ≤ b.ibt ∧ unbroken b last l
  | last, .poll now (some _) _ :: l => elapsed b now last ≤ b.ibt ∧ unbroken b now l
  | last, .encodeShort _ :: l => unbroken b last l
  | _, .reset :: _ => False
  | _, .shortFrame _ :: _ => False
  | _, .longFrame _ :: _ => False
  | _, .unknownFrame _ :: _ => False

/-- Whether an instruction is the RESET cycle, a frame handed to DECODE, or a POLL that closes the buffer: the only ones
that write DEC or SNAP (R41). -/
def writesDec (s : State) : Instr → Bool
  | .nop => false
  | .rxByte _ _ _ => false
  | .poll now _ _ => closes s.build s.fb.len now s.fb.lastTs
  | .encodeShort _ => false
  | .reset => true
  | .shortFrame _ => true
  | .longFrame _ => true
  | .unknownFrame _ => true

/-- No instruction of the list, run one after another, writes DEC or SNAP: none is a RESET, and none emits a frame. -/
def emitsNothing : List Instr → State → Prop
  | [], _ => True
  | i :: l, s => writesDec s i = false ∧ ∀ t, exec i s = .next t → emitsNothing l t

/-- Whether an instruction emits a frame: those that write DEC, but for RESET. -/
def emitsFrame (s : State) : Instr → Bool
  | .nop => false
  | .rxByte _ _ _ => false
  | .poll now _ _ => closes s.build s.fb.len now s.fb.lastTs
  | .encodeShort _ => false
  | .reset => false
  | .shortFrame _ => true
  | .longFrame _ => true
  | .unknownFrame _ => true

/-- The frame in assembly after an instruction, when it was F before: what the source's unbounded buffer would hold (R97, R102,
R168). A POLL that closes the buffer empties it before the byte of its cycle is appended (R156). -/
def heldAfter (s : State) (F : List Byte) : Instr → List Byte
  | .nop => F
  | .rxByte b _ _ => F ++ [b]
  | .poll now rx _ => (if closes s.build s.fb.len now s.fb.lastTs then [] else F) ++ rx.toList
  | .encodeShort _ => F
  | .reset => []
  | .shortFrame _ => []
  | .longFrame _ => []
  | .unknownFrame _ => []

/-- Whether an instruction carries ENCODE_SHORT. -/
def carriesEnc : Instr → Option EncArgs
  | .nop => none
  | .rxByte _ _ enc => enc
  | .poll _ _ enc => enc
  | .encodeShort a => some a
  | .reset => none
  | .shortFrame _ => none
  | .longFrame _ => none
  | .unknownFrame _ => none

end Sys2Proof.Machine
end

