-- ==== Sys2Proof/Certificates/Slice0/Obligations.lean ====
section
/-!
DEFINITION. The statements for the provers: what the numbered rules of spec/ say the block does, the frame and the completion of
every instruction, the invariant of the block, and the laws of its encodings. Nothing here is proved.
TX.FRAME while EV.TX_VALID = 0 is a free value (notes/assumptions/3.md), so no statement says anything of it there.
-/

open Sys2Proof Sys2Proof.Machine

/-! ### Reset -/

/-- R43: the state after reset. -/
def Obligations.ResetStateHasResetValues : Prop := ResetValues State.reset

/-- R168: a RESET cycle completes, whatever the state, with every element at the reset value of R43 and no pulse; what surrounds
the block stands. FB.BUF and TX.FRAME, unspecified in R43, are not spoken of. -/
def Obligations.ResetCycleCompletes : Prop :=
  ∀ s : State, ∃ t, exec .reset s = .next t ∧ ResetValues t ∧ SameOutside s t

/-- R68, R155: in a cycle with `rst = 1` no operation is performed, whatever the strobes and the operand ports hold, and the
state takes its reset values. -/
def Obligations.ResetOverridesStrobes : Prop :=
  ∀ (s : State) (p : Ports), p.rst = true →
    step (s.present p) = exec .reset s ∧ ∃ t, step (s.present p) = .next t ∧ ResetValues t

/-! ### The operations -/

/-- R65: NOP changes nothing but the event pulses, which return to 0. -/
def Obligations.NopOnlyEndsPulses : Prop :=
  ∀ s : State, ∃ t, exec .nop s = .next t ∧ t.ev = EV.quiet ∧
    SameReceive s t ∧ t.dec = s.dec ∧ t.snap = s.snap ∧ SameOutside s t

/-- R97, R91, R42: RX_BYTE completes in every state and gives every element of FB and CS its value. The byte is stored at offset
FB.LEN if that cell exists, and every other cell reads as before. An ENCODE_SHORT in the same cycle changes none of this. Two
clauses are the model's reading: that the operation leaves the event outputs, as R97 says, while the cycle ends the pulses of the
last one (notes/assumptions/5.md), and that FB.LAST_TS takes the TS_W low bits of the time reading (notes/assumptions/6.md). -/
def Obligations.RxByteAppends : Prop :=
  ∀ (s : State) (b : Byte) (now : Nat) (enc : Option EncArgs),
    ∃ t, exec (.rxByte b now enc) s = .next t ∧
      (s.fb.len < s.build.bufDepth → t.fb.buf.read s.fb.len = b) ∧
      (∀ a, ¬(a = s.fb.len ∧ s.fb.len < s.build.bufDepth) → t.fb.buf.read a = s.fb.buf.read a) ∧
      t.acc = (if 2 ≤ s.fb.len then s.acc + b else s.acc) ∧
      t.fb.len = (if s.fb.len < 2 ^ s.build.lenW - 1 then s.fb.len + 1 else s.fb.len) ∧
      t.fb.nbytes = s.fb.nbytes + 1 ∧
      t.fb.lastByte = b ∧
      t.fb.lastTs = now % 2 ^ s.build.tsW ∧
      t.dec = s.dec ∧ t.snap = s.snap ∧ SameOutside s t ∧
      t.ev.frameValid = false ∧ t.ev.warn = false ∧ t.ev.txValid = enc.isSome ∧
      (s.receive b now).dec = s.dec ∧ (s.receive b now).snap = s.snap ∧ (s.receive b now).ev = s.ev

/-- R102, R121, R92: a POLL that finds a non-empty buffer and more than IBT elapsed emits the frame: with d the DecodedFrame of
the buffer's view, DEC takes the values of R121, SNAP those of a Long frame and of no other, the buffer and the accumulator
are cleared, and EV.FRAME_VALID is 1 with EV.WARN when the frame has an error. -/
def Obligations.PollEmitsAfterSilence : Prop :=
  ∀ (s : State) (now : Nat) (enc : Option EncArgs),
    s.fb.len ≠ 0 → s.build.ibt < elapsed s.build now s.fb.lastTs →
    ∃ t, exec (.poll now none enc) s = .next t ∧
      BufferClosed s t ∧ SameOutside s t ∧
      t.dec.valid = true ∧
      t.dec.tag = (decodeView s.build s.heldView).tag ∧
      t.dec.len = (decodeView s.build s.heldView).len ∧
      t.dec.err = (decodeView s.build s.heldView).err ∧
      t.dec.csumRx = s.fb.lastByte ∧
      t.dec.csumCalc = (if s.fb.len < 4 then 0x00 else s.acc - s.fb.lastByte) ∧
      (t.dec.csumOk = true ↔ 4 ≤ s.fb.len ∧ t.dec.csumCalc = t.dec.csumRx) ∧
      (∀ f, decodeView s.build s.heldView = .short f → t.dec.sPowerPct = f.powerPct ∧ t.dec.sCmd = f.cmd) ∧
      (t.dec.tag ≠ .short → t.dec.sPowerPct = s.dec.sPowerPct ∧ t.dec.sCmd = s.dec.sCmd) ∧
      (∀ f, decodeView s.build s.heldView = .long f → t.snap = f) ∧
      (t.dec.tag ≠ .long → t.snap = s.snap) ∧
      t.ev.frameValid = true ∧
      (t.ev.warn = true ↔ t.dec.err ≠ .noError) ∧
      t.ev.txValid = enc.isSome

/-- R102, R103, R42: a POLL that finds the buffer empty, or at most IBT elapsed, leaves FB, CS, DEC and SNAP and pulses nothing. That
its cycle ends the frame pulses of the last one is the model's reading of R102 with R42 (notes/assumptions/5.md). -/
def Obligations.PollOtherwiseDoesNothing : Prop :=
  ∀ (s : State) (now : Nat) (enc : Option EncArgs),
    s.fb.len = 0 ∨ elapsed s.build now s.fb.lastTs ≤ s.build.ibt →
    ∃ t, exec (.poll now none enc) s = .next t ∧
      SameReceive s t ∧ SameOutside s t ∧ t.dec = s.dec ∧ t.snap = s.snap ∧
      t.ev.frameValid = false ∧ t.ev.warn = false ∧ t.ev.txValid = enc.isSome

/-- R63, R66, R156, R175, with R97 and R91 for what the byte does: POLL and RX_BYTE in one cycle. POLL runs first: DEC, SNAP and the
frame pulses are those of the POLL alone; the byte is then appended, at offset 0 of a new frame when the POLL closed the buffer and
at offset FB.LEN otherwise. That FB.LAST_TS takes the TS_W low bits of the time reading is the model's reading
(notes/assumptions/6.md). -/
def Obligations.PollThenByteInOneCycle : Prop :=
  ∀ (s : State) (b : Byte) (now : Nat) (enc : Option EncArgs),
    ∃ t u, exec (.poll now (some b) enc) s = .next t ∧ exec (.poll now none enc) s = .next u ∧
      t.dec = u.dec ∧ t.snap = u.snap ∧ t.ev = u.ev ∧ SameOutside s t ∧
      (u.fb.len < s.build.bufDepth → t.fb.buf.read u.fb.len = b) ∧
      (∀ a, ¬(a = u.fb.len ∧ u.fb.len < s.build.bufDepth) → t.fb.buf.read a = s.fb.buf.read a) ∧
      t.acc = (if 2 ≤ u.fb.len then u.acc + b else u.acc) ∧
      t.fb.len = (if u.fb.len < 2 ^ s.build.lenW - 1 then u.fb.len + 1 else u.fb.len) ∧
      t.fb.nbytes = u.fb.nbytes + 1 ∧
      t.fb.lastByte = b ∧ t.fb.lastTs = now % 2 ^ s.build.tsW ∧
      (s.build.Legal → closes s.build s.fb.len now s.fb.lastTs = true →
        t.fb.len = 1 ∧ t.acc = 0x00 ∧ t.fb.buf.read 0 = b ∧ t.ev.frameValid = true)

/-- R134, R89, R136: ENCODE_SHORT completes in every state, with the sixteen bytes of R134 in TX.FRAME, the last of them the
checksum of the frame, (c + 0x0B + p + s) mod 256, and with EV.TX_VALID; FB, CS, DEC and SNAP are unchanged. -/
def Obligations.EncodeShortBuildsFrame : Prop :=
  ∀ (s : State) (a : EncArgs), ∃ t, exec (.encodeShort a) s = .next t ∧
    t.txFrame.toList =
      [0xAA, 0x66, a.cmd, 0x0B, 0x00, 0x00, 0x00, 0x00, a.power, a.state, 0x00, 0x00, 0x00, 0x00, 0x00,
       a.cmd + 0x0B + a.power + a.state] ∧
    rd8 t.txFrame.toList 15 = checksum t.txFrame.toList ∧
    t.ev.txValid = true ∧ t.ev.frameValid = false ∧ t.ev.warn = false ∧
    SameReceive s t ∧ t.dec = s.dec ∧ t.snap = s.snap ∧ SameOutside s t

/-- R140, R60: transmit and receive share no state. An ENCODE_SHORT in the cycle of a POLL or an RX_BYTE leaves every element but
TX.FRAME and EV.TX_VALID as it would be without it, and the frame it builds does not depend on the state or the company. -/
def Obligations.EncodeSharesNothing : Prop :=
  ∀ (s : State) (a : EncArgs) (b : Byte) (now : Nat) (rx : Option Byte),
    (∃ t u, exec (.poll now rx (some a)) s = .next t ∧ exec (.poll now rx none) s = .next u ∧
      t.fb = u.fb ∧ t.acc = u.acc ∧ t.dec = u.dec ∧ t.snap = u.snap ∧ SameOutside u t ∧
      t.ev = { u.ev with txValid := true } ∧
      ∃ v, exec (.encodeShort a) State.reset = .next v ∧ t.txFrame = v.txFrame) ∧
    (∃ t u, exec (.rxByte b now (some a)) s = .next t ∧ exec (.rxByte b now none) s = .next u ∧
      t.fb = u.fb ∧ t.acc = u.acc ∧ t.dec = u.dec ∧ t.snap = u.snap ∧ SameOutside u t ∧
      t.ev = { u.ev with txValid := true } ∧
      ∃ v, exec (.encodeShort a) State.reset = .next v ∧ t.txFrame = v.txFrame)

/-- R156: the operations of a cycle are those of three cycles of one operation each, in the order POLL, RX_BYTE, ENCODE_SHORT, but
that their pulses are visible together. -/
def Obligations.CycleRunsInOrder : Prop :=
  ∀ (s : State) (b : Byte) (now : Nat) (a : EncArgs),
    ∃ t t1 t2 t3, exec (.poll now (some b) (some a)) s = .next t ∧
      exec (.poll now none none) s = .next t1 ∧ exec (.rxByte b now none) t1 = .next t2 ∧
      exec (.encodeShort a) t2 = .next t3 ∧
      t.fb = t3.fb ∧ t.acc = t3.acc ∧ t.dec = t3.dec ∧ t.snap = t3.snap ∧ t.txFrame = t3.txFrame ∧
      t.ev.frameValid = t1.ev.frameValid ∧ t.ev.warn = t1.ev.warn ∧ t.ev.txValid = t3.ev.txValid

/-! ### The wire frames -/

/-- R114: a Short frame whose checksum is right, or not verified, is decoded to its two fields and its checksum byte: DEC takes
them, SNAP is unchanged, and the emission clears the buffer with EV.FRAME_VALID and no warning. -/
def Obligations.ShortFrameDecodes : Prop :=
  ∀ (s : State) (w : ShortWire), s.build.verifyCsum = false ∨ w.csum = checksum w.bytes →
    ∃ t, exec (.shortFrame w) s = .next t ∧
      t.dec.valid = true ∧ t.dec.tag = .short ∧ t.dec.len = 16 ∧ t.dec.err = .noError ∧
      t.dec.sPowerPct.toNat = 10 * w.power.toNat ∧ t.dec.sCmd = cmdMap w.stateCode ∧
      t.dec.csumRx = w.csum ∧ t.dec.csumCalc = checksum w.bytes ∧
      (t.dec.csumOk = true ↔ w.csum = checksum w.bytes) ∧
      t.snap = s.snap ∧ BufferClosed s t ∧ SameOutside s t ∧
      t.ev = { frameValid := true, warn := false, txValid := false }

/-- R118, R122: a Long frame whose checksum is right, or not verified, gives every SNAP element the value of its layout, and leaves
the Short fields of DEC. -/
def Obligations.LongFrameDecodes : Prop :=
  ∀ (s : State) (w : LongWire), w.gap7.length = 4 → w.gap30.length = 22 →
    s.build.verifyCsum = false ∨ w.csum = checksum w.bytes →
    ∃ t, exec (.longFrame w) s = .next t ∧
      t.snap.valid = true ∧ t.snap.heaterEn = w.heaterEn ∧ t.snap.opState = stateMap w.opState ∧
      t.snap.powerPct.toNat = 10 * w.power.toNat ∧ t.snap.vinRaw = w.vin ∧ t.snap.gpCurrent = w.gpCurrent ∧
      t.snap.cooling = w.cooling ∧ t.snap.fanVRaw = w.fanV ∧ t.snap.hxTempRaw = w.hxTemp ∧
      t.snap.stateDur = w.stateDur ∧ t.snap.pumpRaw = w.pump ∧ t.snap.gpVoltage = w.gpVoltage ∧
      t.snap.gpCurrent2 = w.gpCurrent2 ∧ t.snap.gpTemp = w.gpTemp ∧ t.snap.rsvd27 = w.rsvd27 ∧
      t.snap.fanRpm = w.fanRpm ∧ t.snap.rsvd52 = w.rsvd52 ∧ t.snap.csumRx = w.csum ∧
      t.dec.valid = true ∧ t.dec.tag = .long ∧ t.dec.len = 56 ∧ t.dec.err = .noError ∧
      t.dec.csumRx = w.csum ∧ t.dec.csumCalc = checksum w.bytes ∧
      (t.dec.csumOk = true ↔ w.csum = checksum w.bytes) ∧
      t.dec.sPowerPct = s.dec.sPowerPct ∧ t.dec.sCmd = s.dec.sCmd ∧ t.dec.shortSeen = s.dec.shortSeen ∧
      BufferClosed s t ∧ SameOutside s t ∧
      t.ev = { frameValid := true, warn := false, txValid := false }

/-- R109, R111: a non-empty frame of no recognised shape is Unknown with its length, its error kind is the first that applies, no
field is written, and the block goes on with a warning. (The empty frame is DECODE's alone: EmptyFrameOfDecodeAlone.) -/
def Obligations.UnknownFrameDecodes : Prop :=
  ∀ (s : State) (F : List Byte), F ≠ [] → knownShape F = false →
    ∃ t, exec (.unknownFrame F) s = .next t ∧
      t.dec.valid = true ∧ t.dec.tag = .unknown ∧ t.dec.len = min F.length (2 ^ s.build.lenW - 1) ∧
      (s.build.Legal → F.length ≤ 3 → t.dec.len = F.length) ∧
      t.dec.err = (if F.length ≤ 3 then .frameTooShortToClassify else .unrecognizedFrameShape) ∧
      t.dec.csumRx = F.getLastD 0x00 ∧ t.dec.csumCalc = checksum F ∧
      (t.dec.csumOk = true ↔ 4 ≤ F.length ∧ F.getLastD 0x00 = checksum F) ∧
      t.dec.sPowerPct = s.dec.sPowerPct ∧ t.dec.sCmd = s.dec.sCmd ∧ t.dec.shortSeen = s.dec.shortSeen ∧
      t.snap = s.snap ∧ BufferClosed s t ∧ SameOutside s t ∧
      t.ev = { frameValid := true, warn := true, txValid := false }

/-- R108: DECODE of the empty frame, alone, is Unknown of length 0 with EmptyFrame and a warning. POLL never hands it one: a POLL that
finds the buffer empty emits nothing, and no POLL makes DEC.ERR EmptyFrame. -/
def Obligations.EmptyFrameOfDecodeAlone : Prop :=
  (∀ b : Build, decodeView b (FrameView.ofBytes []) = .unknown 0 .emptyFrame ∧
    warnFlag (decodeView b (FrameView.ofBytes [])).err = true) ∧
  (∀ (s : State) (now : Nat) (rx : Option Byte) (enc : Option EncArgs), ∃ t, exec (.poll now rx enc) s = .next t ∧
    (s.fb.len = 0 → t.ev.frameValid = false ∧ t.dec = s.dec) ∧
    (t.dec.err = .emptyFrame → s.dec.err = .emptyFrame))

/-- R113: with VERIFY_CSUM = 1 a Short or Long frame whose checksum byte is wrong is Unknown with ChecksumMismatch, and no field is
written; with VERIFY_CSUM = 0 the classification and the fields do not depend on the checksum. A frame Unknown already keeps its
own error kind. -/
def Obligations.WrongChecksumIsMismatch : Prop :=
  (∀ (s : State) (F : List Byte), knownShape F = false →
    ∃ t, exec (decodeWire F) s = .next t ∧ t.dec.tag = .unknown ∧ t.dec.err ≠ .checksumMismatch) ∧
  ∀ (s : State) (F : List Byte), s.build.Legal → knownShape F = true → F.getLastD 0x00 ≠ checksum F →
    ∃ t, exec (decodeWire F) s = .next t ∧
      (s.build.verifyCsum = true → t.dec.tag = .unknown ∧ t.dec.err = .checksumMismatch ∧ t.dec.len = F.length ∧
        t.dec.csumOk = false ∧ t.dec.csumRx = F.getLastD 0x00 ∧ t.dec.csumCalc = checksum F ∧
        t.dec.sPowerPct = s.dec.sPowerPct ∧ t.dec.sCmd = s.dec.sCmd ∧ t.snap = s.snap ∧
        t.ev.frameValid = true ∧ t.ev.warn = true) ∧
      (s.build.verifyCsum = false → t.dec.err = .noError ∧
        (F.length = 16 → t.dec.tag = .short ∧ t.dec.sPowerPct = percentOf (rd8 F 8) ∧
          t.dec.sCmd = cmdMap (rd8 F 9)) ∧
        (F.length = 56 → t.dec.tag = .long ∧ t.snap = longFields F) ∧ t.ev.warn = false)

/-- R125: DECODE checks none of the bytes at offsets 0, 1 and 2: two frames that agree from offset 3 on are decoded alike. With
VERIFY_CSUM = 1 the byte at offset 2, which the checksum sums, must agree too. A frame 00 00 00 0B and 12 more bytes is Short. -/
def Obligations.HeaderBytesNotChecked : Prop :=
  (∀ (b : Build) (F G : List Byte), b.verifyCsum = false ∨ rd8 F 2 = rd8 G 2 → F.length = G.length →
    (∀ i, 3 ≤ i → rd8 F i = rd8 G i) →
    decodeView b (FrameView.ofBytes F) = decodeView b (FrameView.ofBytes G)) ∧
  ∀ (b : Build) (F : List Byte), b.verifyCsum = false → F.length = 12 →
    (decodeView b (FrameView.ofBytes ([0x00, 0x00, 0x00, 0x0B] ++ F))).tag = .short

/-- R41, R122, R35: SNAP is written by nothing but RESET and a Long frame, and DEC's Short fields by nothing but RESET and a Short
frame. -/
def Obligations.FieldsComeFromTheirFrame : Prop :=
  ∀ (i : Instr) (s : State), i ≠ .reset → ∃ t, exec i s = .next t ∧
    (t.snap = s.snap ∨ (t.dec.tag = .long ∧ t.snap.valid = true ∧ t.ev.frameValid = true)) ∧
    ((t.dec.sPowerPct = s.dec.sPowerPct ∧ t.dec.sCmd = s.dec.sCmd) ∨
      (t.dec.tag = .short ∧ t.ev.frameValid = true))

/-! ### Whole-machine rules -/

/-- R41: apart from reset, DEC and SNAP change only in a cycle in which a frame is emitted. -/
def Obligations.DecAndSnapHold : Prop :=
  ∀ (i : Instr) (s : State), writesDec s i = false → ∃ t, exec i s = .next t ∧ t.dec = s.dec ∧ t.snap = s.snap

/-- R42: each event output is 1 after a cycle exactly when its operation produced it in that cycle: EV.FRAME_VALID after an
emission, EV.WARN with it when the error kind is not None, EV.TX_VALID after an ENCODE_SHORT, whose frame TX.FRAME then is. -/
def Obligations.PulsesLastOneCycle : Prop :=
  ∀ (i : Instr) (s : State), ∃ t, exec i s = .next t ∧
    t.ev.frameValid = emitsFrame s i ∧
    (t.ev.warn = true ↔ emitsFrame s i = true ∧ t.dec.err ≠ .noError) ∧
    t.ev.txValid = (carriesEnc i).isSome ∧
    ∀ a, carriesEnc i = some a → t.txFrame = encodedFrame a

/-- R6: no operation changes a build parameter. That the build stands in State is the model's choice (notes/assumptions/1.md). -/
def Obligations.BuildNeverChanges : Prop :=
  ∀ (n : Nat) (s : State), ∃ t, core.run n s = .next t ∧ t.build = s.build

/-- R54: a POLL that emits is a destructive read: whatever POLL follows it finds nothing to emit, and DEC and SNAP keep the
frame. -/
def Obligations.SecondPollFindsNothing : Prop :=
  ∀ (s : State) (now later : Nat) (enc enc' : Option EncArgs),
    closes s.build s.fb.len now s.fb.lastTs = true →
    ∃ t u, exec (.poll now none enc) s = .next t ∧ exec (.poll later none enc') t = .next u ∧
      t.ev.frameValid = true ∧ u.ev.frameValid = false ∧ u.fb.len = 0 ∧ u.acc = 0x00 ∧
      u.dec = t.dec ∧ u.snap = t.snap

/-! ### Time -/

/-- R101: the elapsed time is (now - FB.LAST_TS) mod 2^TS_W, an unsigned TS_W-bit value. -/
def Obligations.ElapsedIsModular : Prop :=
  ∀ (b : Build) (now last : Nat),
    (elapsed b now last : Int) = ((now : Int) - (last : Int)) % (2 ^ b.tsW : Nat) ∧ elapsed b now last < 2 ^ b.tsW

/-- R102, R103: for a last byte at time t0 and a POLL d time units later, d below 2^TS_W, a non-empty buffer is closed exactly when
d is strictly greater than IBT, across a wrap of the clock as well. That a time reading is truncated to TS_W bits is the model's
reading (notes/assumptions/6.md). -/
def Obligations.PollThresholdIsStrict : Prop :=
  ∀ (b : Build) (len t0 d : Nat), d < 2 ^ b.tsW →
    (closes b len (t0 + d) (sampleTs b t0) = true ↔ len ≠ 0 ∧ b.ibt < d)

/-- R172, R174: a host that polls every `period` units, the first time at `first`, at most `period` after the last byte, which came at
t1, meets silences of at least `gap` units when period <= gap - IBT - 1 and IBT + period is below 2^TS_W. Its polls are run one after
another: those before the k-th emit nothing, and the k-th, which comes within the silence, emits the frame held and nothing else.
That times are unbounded readings of a TS_W-bit clock is the model's reading (notes/assumptions/6.md). -/
def Obligations.PollPeriodSeparatesFrames : Prop :=
  ∀ (s : State) (F : List Byte) (t1 first period gap : Nat),
    s.build.Legal → Holds s F → F ≠ [] → s.fb.lastTs = sampleTs s.build t1 →
    0 < period → PollPeriodMeets s.build period gap → s.build.ibt + period < 2 ^ s.build.tsW →
    t1 ≤ first → first ≤ t1 + period →
    ∃ k u t, t1 < first + k * period ∧ first + k * period < t1 + gap ∧
      emitsNothing (pollsAt first period k) s ∧ runAll (pollsAt first period k) s = some u ∧
      exec (.poll (first + k * period) none none) u = .next t ∧ t.ev.frameValid = true ∧
      exec (decodeWire F) u = .next t ∧ runAll (pollsAt first period (k + 1)) s = some t

/-! ### The frame in assembly -/

/-- R22, R25, R26, R47: after RX_BYTE for each byte of a sequence, starting from an empty buffer, the block holds exactly that
sequence, however long it is. -/
def Obligations.ReceivedBytesAreHeld : Prop :=
  ∀ (s : State) (l : List (Byte × Nat)), s.build.Legal → Holds s [] →
    ∃ t, runAll (receiveCycles l) s = some t ∧ Holds t (l.map Prod.fst) ∧ t.dec = s.dec ∧ t.snap = s.snap ∧
      t.build = s.build

/-- R10, R22, R23, R26, R97, R102: the block is at every cycle an image of the source's framer, whose buffer is an unbounded
sequence of bytes. When it holds the frame F, it holds after any instruction what that buffer would: F with the byte appended
after an RX_BYTE, nothing after an emission, and so on. -/
def Obligations.FrameHeldThroughEveryCycle : Prop :=
  ∀ (i : Instr) (s : State) (F : List Byte), s.build.Legal → Holds s F →
    ∃ t, exec i s = .next t ∧ Holds t (heldAfter s F i)

/-- R90: the accumulator form equals the checksum of the frame held, including a frame longer than BUF_DEPTH; FB.LEN < 4 exactly when
the true count is. -/
def Obligations.AccumulatorIsChecksum : Prop :=
  ∀ (s : State) (F : List Byte), s.build.Legal → Holds s F →
    (if s.fb.len < 4 then 0x00 else s.acc - s.fb.lastByte) = checksum F ∧ (s.fb.len < 4 ↔ F.length < 4)

/-- R102, R107, R112: the block refines the source's unbounded buffer. Whatever frame F it holds, longer than BUF_DEPTH or than the
counter included, a POLL that closes the buffer does what the wire row of F does: DECODE(F) with its write-back; and the block
then holds no byte. -/
def Obligations.PollDecodesHeldFrame : Prop :=
  ∀ (s : State) (F : List Byte) (now : Nat), s.build.Legal → Holds s F →
    closes s.build s.fb.len now s.fb.lastTs = true →
    exec (.poll now none none) s = exec (decodeWire F) s ∧
    ∃ t, exec (.poll now none none) s = .next t ∧ Holds t []

/-- R112: a frame longer than the buffer is Unknown from FB.LEN alone, no field is read, and its checksum diagnostics are those of
the whole frame; a saturated FB.LEN is what DEC.LEN reports. -/
def Obligations.OverlongFrameIsUnknown : Prop :=
  ∀ (s : State) (F : List Byte) (now : Nat), s.build.Legal → Holds s F → s.build.bufDepth < F.length →
    s.build.ibt < elapsed s.build now s.fb.lastTs →
    ∃ t, exec (.poll now none none) s = .next t ∧
      t.dec.tag = .unknown ∧ t.dec.err = .unrecognizedFrameShape ∧
      t.dec.len = min F.length (2 ^ s.build.lenW - 1) ∧
      t.dec.csumCalc = checksum F ∧ t.dec.csumRx = F.getLastD 0x00 ∧
      t.dec.sPowerPct = s.dec.sPowerPct ∧ t.dec.sCmd = s.dec.sCmd ∧ t.snap = s.snap ∧ t.ev.warn = true

/-- R105: while every byte arrives within IBT time units of the one before, no POLL among them emits anything, however many there are
between two bytes or in the cycles of bytes, whatever else the cycles carry, and the bytes are one frame. -/
def Obligations.BurstIsOneFrame : Prop :=
  ∀ (s : State) (x : Byte) (t0 : Nat) (enc : Option EncArgs) (l : List Instr), s.build.Legal → Holds s [] →
    unbroken s.build t0 l →
    emitsNothing (.rxByte x t0 enc :: l) s ∧
    ∃ t, runAll (.rxByte x t0 enc :: l) s = some t ∧
      Holds t (x :: l.flatMap received) ∧ t.dec = s.dec ∧ t.snap = s.snap ∧ t.ev.frameValid = false

/-- R124: the sixteen bytes ENCODE_SHORT builds, received unbroken from an empty buffer and emitted by one POLL, are decoded to the
power and the command they were built from, under either value of VERIFY_CSUM. -/
def Obligations.EncodedFrameDecodesBack : Prop :=
  ∀ (s : State) (a : EncArgs) (stamps : List Nat) (now last : Nat),
    s.build.Legal → Holds s [] → stamps.length = 15 →
    s.build.ibt < elapsed s.build now last →
    ∃ t, runAll (receiveCycles ((encodedFrame a).toList.zip (stamps ++ [last])) ++ [.poll now none none]) s = some t ∧
      t.dec.valid = true ∧ t.dec.tag = .short ∧ t.dec.err = .noError ∧ t.dec.csumOk = true ∧
      t.dec.sPowerPct.toNat = a.power.toNat * 10 ∧ t.dec.sCmd = cmdMap a.state ∧ t.ev.frameValid = true

/-! ### The checksum and the field values -/

/-- R93: changing the last byte of a frame never changes its checksum, frames below four bytes have checksum 0, and an 8-bit sum
agrees with the source's 32-bit sum for frames of any length. -/
def Obligations.ChecksumLaws : Prop :=
  (∀ (F : List Byte) (x y : Byte), checksum (F ++ [x]) = checksum (F ++ [y])) ∧
  (∀ F : List Byte, F.length < 4 → checksum F = 0x00) ∧
  (∀ F : List Byte, 4 ≤ F.length → checksum F = (summedBytes F).foldl (fun t b => t + b) 0x00)

/-- R12, R48: the read primitives. -/
def Obligations.ReadsAreBounded : Prop :=
  ∀ (F : List Byte) (i : Nat),
    (∀ h : i < F.length, rd8 F i = F[i]) ∧ (F.length ≤ i → rd8 F i = 0x00) ∧
    (∀ h : i + 1 < F.length, (rd16be F i).toNat = F[i].toNat * 256 + F[i + 1].toNat) ∧
    (F.length ≤ i + 1 → rd16be F i = 0x0000)

/-- R77: the requested-command map and its codes. -/
def Obligations.CommandCodes : Prop :=
  ∀ b : Byte, cmdCode (cmdMap b) =
    (if b = 0x02 then 0 else if b = 0x05 then 1 else if b = 0x06 then 2 else if b = 0x08 then 3 else 7)

/-- R78: the operating-state map and its codes. -/
def Obligations.StateCodes : Prop :=
  ∀ b : Byte, stateCode (stateMap b) =
    (if b = 0x00 then 0 else if b = 0x01 then 1 else if b = 0x02 then 2 else if b = 0x03 then 3
      else if b = 0x04 then 4 else 7)

/-- R79, R150: the codes of DEC.TAG and DEC.ERR, and that they are what the ports show; 3 is no tag, and 6 and 7 are no error kind. -/
def Obligations.TagAndErrorCodes : Prop :=
  (∀ s : State, (s.outputs.decTag = 0 ↔ s.dec.tag = .unknown) ∧ (s.outputs.decTag = 1 ↔ s.dec.tag = .short) ∧
    (s.outputs.decTag = 2 ↔ s.dec.tag = .long) ∧ s.outputs.decTag ≠ 3) ∧
  (∀ s : State, (s.outputs.decErr = 0 ↔ s.dec.err = .noError) ∧ (s.outputs.decErr = 1 ↔ s.dec.err = .emptyFrame) ∧
    (s.outputs.decErr = 2 ↔ s.dec.err = .frameTooShortToClassify) ∧
    (s.outputs.decErr = 3 ↔ s.dec.err = .unrecognizedFrameShape) ∧
    (s.outputs.decErr = 4 ↔ s.dec.err = .fieldOutOfRange) ∧ (s.outputs.decErr = 5 ↔ s.dec.err = .checksumMismatch) ∧
    s.outputs.decErr ≠ 6 ∧ s.outputs.decErr ≠ 7)

/-- R81: power_level_percent is ten times the byte, at most 2550, and never wraps in its twelve bits. -/
def Obligations.PercentNeverWraps : Prop :=
  ∀ b : Byte, (percentOf b).toNat = 10 * b.toNat ∧ (percentOf b).toNat ≤ 2550

/-- R62: byte i of TX.FRAME is on bits 8i+7 : 8i of the port. -/
def Obligations.TxPortPacking : Prop :=
  ∀ (v : Vector Byte 16) (i : Nat) (h : i < 16), (packTx v).extractLsb' (8 * i) 8 = v[i]

/-! ### The encodings -/

/-- A step runs the decoded instruction: with a cycle presented, the step is exec of what the cycle decodes to, and taking the
cycle is all the step adds; the encoding of a well-formed operation runs that operation; with nothing presented, NOP. The list of
presented cycles is the model's choice (notes/assumptions/2.md). -/
def Obligations.StepRunsDecodedCycle : Prop :=
  (∀ (s : State) (p : Ports), step (s.present p) = exec (decodeCycle p) s) ∧
  (∀ (s : State) (i : Instr) (p : Ports), i.wellFormed s.build = true → encode i = .cycle p →
    step (s.present p) = exec i s) ∧
  (∀ s : State, s.inputs = [] → step s = exec .nop s)

/-- R64, R65, R66, R67: every one of the eight strobe patterns selects its operations, RX_BYTE by bit 0, POLL by bit 1 and
ENCODE_SHORT by bit 2, each with its own ports, independently of the others. -/
def Obligations.StrobePatternsDefined : Prop :=
  ∀ p : Ports, p.rst = false →
    (p.pollReq = true → decodeCycle p = .poll p.now (if p.rxValid then some p.rxByte else none)
      (if p.encReq then some { cmd := p.encCmd, state := p.encState, power := p.encPower } else none)) ∧
    (p.pollReq = false → p.rxValid = true → decodeCycle p = .rxByte p.rxByte p.now
      (if p.encReq then some { cmd := p.encCmd, state := p.encState, power := p.encPower } else none)) ∧
    (p.pollReq = false → p.rxValid = false → p.encReq = true →
      decodeCycle p = .encodeShort { cmd := p.encCmd, state := p.encState, power := p.encPower }) ∧
    (p.pollReq = false → p.rxValid = false → p.encReq = false → decodeCycle p = .nop)

/-- R72, R110: a frame is classified by its length field and its exact length jointly; one of 0 .. 3 bytes is Unknown. -/
def Obligations.ClassIsExact : Prop :=
  ∀ F : List Byte,
    (F.length < 4 → decodeWire F = .unknownFrame F) ∧
    ((∃ w, decodeWire F = .shortFrame w) ↔ rd8 F 3 = 0x0B ∧ F.length = 16) ∧
    ((∃ w, decodeWire F = .longFrame w) ↔ rd8 F 3 = 0x33 ∧ F.length = 56) ∧
    (decodeWire F = .unknownFrame F ↔
      ¬(rd8 F 3 = 0x0B ∧ F.length = 16) ∧ ¬(rd8 F 3 = 0x33 ∧ F.length = 56))

/-- Words written out from the table decode to the instructions they stand for. What a word leaves out is filled in by the model's
choice (notes/assumptions/9.md). -/
def Obligations.TableWordsDecode : Prop :=
  decodeTableWord 8 0b0000 = some .nop ∧
  decodeTableWord 8 0b0001 = some (.rxByte 0 0 none) ∧
  decodeTableWord 8 0b0010 = some (.poll 0 none none) ∧
  decodeTableWord 8 0b0100 = some (.encodeShort { cmd := 0, state := 0, power := 0 }) ∧
  decodeTableWord 8 0b1000 = some .reset ∧
  decodeTableWord 8 0b1111 = some .reset ∧
  (∃ w, decodeTableWord 24 0x0B = some (.shortFrame w)) ∧
  (∃ w, decodeTableWord 8 0x33 = some (.longFrame w))

/-- Decoding the encoding of a well-formed instruction gives it back, with every operand at every value the encoding admits. -/
def Obligations.DecodeOfEncode : Prop :=
  ∀ (b : Build) (i : Instr), i.wellFormed b = true → decode (encode i) = i

/-- Encoding what a frame decodes to gives the frame back: no byte of a frame of any class is dropped. -/
def Obligations.EncodeOfDecodedFrame : Prop :=
  ∀ F : List Byte, encode (decodeWire F) = .frame F

/-! ### The invariant and what can not be observed -/

/-- The invariant of the block holds at reset. Its part about FB.BUF rests on the model's empty list there
(notes/assumptions/4.md). -/
def Obligations.InvariantAtReset : Prop := Inv State.reset

/-- Every step keeps the invariant. -/
def Obligations.InvariantKept : Prop :=
  ∀ s : State, Inv s → ∃ t, step s = .next t ∧ Inv t

/-- R27, R22: after any number of steps from a state of the invariant, FB.LEN is the true count of bytes while that fits the counter,
and the largest count after; and the buffer is empty exactly when it is 0. -/
def Obligations.LengthIsTrueCount : Prop :=
  ∀ (n : Nat) (s : State), Inv s → ∃ t, core.run n s = .next t ∧
    (t.fb.nbytes ≤ 2 ^ s.build.lenW - 1 → t.fb.len = t.fb.nbytes) ∧
    (2 ^ s.build.lenW - 1 < t.fb.nbytes → t.fb.len = 2 ^ s.build.lenW - 1) ∧
    (t.fb.len = 0 ↔ t.fb.nbytes = 0)

/-- R108, R123, R150: after any number of steps from a state of the invariant, the decoded frame DEC holds, if any, reports neither
EmptyFrame nor FieldOutOfRange, and ChecksumMismatch only in a block that verifies. -/
def Obligations.ImpossibleErrorsNeverReported : Prop :=
  ∀ (n : Nat) (s : State), Inv s → ∃ t, core.run n s = .next t ∧
    ∀ d, t.readDec = some d →
      d.err ≠ .emptyFrame ∧ d.err ≠ .fieldOutOfRange ∧ (d.err = .checksumMismatch → s.build.verifyCsum = true)

/-- U1 to U3, R44: cells that hold no byte of the current frame, FB.LAST_TS and FB.LAST_BYTE while the buffer is empty, and TX.FRAME
without EV.TX_VALID can not be observed, now or after any step: two states that differ only there stay so. Nothing observable rests on the
values the model names for them (notes/assumptions/3.md and 4.md). -/
def Obligations.HiddenStateStaysHidden : Prop :=
  ∀ s t : State, SameObservable s t →
    (s.readDec = t.readDec ∧ s.readShort = t.readShort ∧ s.readSnap = t.readSnap ∧ s.readTx = t.readTx ∧
      { s.outputs with txFrame := 0 } = { t.outputs with txFrame := 0 }) ∧
    ∃ s' t', step s = .next s' ∧ step t = .next t' ∧ SameObservable s' t'

/-- R177, R170: from reset, until a frame is emitted, the host reads no decoded frame, no Short field and no snapshot: a run of any
length, with POLLs that close nothing among it, leaves all three absent. -/
def Obligations.NothingDecodedBeforePoll : Prop :=
  ∀ l : List Instr, emitsNothing l State.reset →
    ∃ t, runAll l State.reset = some t ∧ t.readDec = none ∧ t.readShort = none ∧ t.readSnap = none

/-- R177, R28, R36: what the host reads is absent until it has been decoded. In a cycle that emits a frame the decoded frame becomes
present, whatever its tag; the Short fields stay as absent or as present as they were unless the frame is Short, and the snapshot
unless it is Long; a cycle that emits nothing changes no reading; and a RESET makes all three absent. -/
def Obligations.ReadingsAreAbsentUntilDecoded : Prop :=
  (∀ (i : Instr) (s : State), i ≠ .reset → ∃ t, exec i s = .next t ∧
    (emitsFrame s i = true → ∃ d, t.readDec = some d ∧ d.short = t.readShort ∧
      (d.tag = .short → ∃ f, t.readShort = some f) ∧ (d.tag ≠ .short → t.readShort = s.readShort) ∧
      (d.tag = .long → ∃ f, t.readSnap = some f) ∧ (d.tag ≠ .long → t.readSnap = s.readSnap)) ∧
    (emitsFrame s i = false →
      t.readDec = s.readDec ∧ t.readShort = s.readShort ∧ t.readSnap = s.readSnap)) ∧
  (∀ s : State, ∃ t, exec .reset s = .next t ∧ t.readDec = none ∧ t.readShort = none ∧ t.readSnap = none)

/-! ### The host -/

/-- R144, R145, R148: with the block's reading of the heater and a level of 0 .. 100, a tick that passes the gate sends a frame in
every row but (off, Off); its power is at most 10, and its state code is one the decoder recognises. -/
def Obligations.ControllerDirectives : Prop :=
  ∀ (on : Bool) (observed : OpState) (level : Nat), level ≤ 100 →
    (directive on observed level = none ↔ on = false ∧ observed = .off) ∧
    ∀ a, directive on observed level = some a → a.power.toNat ≤ 10 ∧ cmdMap a.state ≠ .unknown ∧
      (on = true → a.power.toNat = level / 10)
end

