-- ==== Sys2Proof/Laws/Decode.lean ====
section
/-!
SUPPORT. The read primitives, the two layouts byte by byte, and the classes.
-/

namespace Sys2Proof

@[simp] theorem rd8_nil (i : Nat) : rd8 [] i = 0x00 := rfl
@[simp] theorem rd8_cons_zero (b : Byte) (F : List Byte) : rd8 (b :: F) 0 = b := rfl
@[simp] theorem rd8_cons_succ (b : Byte) (F : List Byte) (i : Nat) : rd8 (b :: F) (i + 1) = rd8 F i := rfl

theorem rd8_of_lt {F : List Byte} {i : Nat} (h : i < F.length) : rd8 F i = F[i] := by
  simp [rd8, List.getD, h]

theorem rd8_of_ge {F : List Byte} {i : Nat} (h : F.length ≤ i) : rd8 F i = 0x00 := by
  simp [rd8, List.getD, List.getElem?_eq_none h]

theorem rd8_append_left {F G : List Byte} {i : Nat} (h : i < F.length) : rd8 (F ++ G) i = rd8 F i := by
  simp [rd8, List.getD, List.getElem?_append_left h]

theorem rd8_append_right {F G : List Byte} {i : Nat} (h : F.length ≤ i) : rd8 (F ++ G) i = rd8 G (i - F.length) := by
  simp [rd8, List.getD, List.getElem?_append_right h]

/-- Two lists of one length whose bytes are the same at every offset are one list. -/
theorem ext_rd8 {F G : List Byte} (hl : F.length = G.length) (h : ∀ i, i < F.length → rd8 F i = rd8 G i) :
    F = G := by
  apply List.ext_getElem hl
  intro i h1 h2
  have := h i h1
  rwa [rd8_of_lt h1, rd8_of_lt h2] at this

/-- The high and the low byte of a field give the field back. -/
@[simp] theorem hi_lo (v : Half) : (hiByte v ++ loByte v : BitVec (8 + 8)) = v := by
  ext i hi
  simp only [hiByte, loByte, BitVec.getElem_append, BitVec.getElem_extractLsb']
  split
  · simp [← BitVec.getLsbD_eq_getElem]
  · rw [← BitVec.getLsbD_eq_getElem]
    congr 1
    omega

@[simp] theorem hiByte_append (a b : Byte) : hiByte (a ++ b : BitVec (8 + 8)) = a := by
  ext i hi
  have h := BitVec.getLsbD_append (x := a) (y := b) (i := 8 + i)
  simp only [hiByte, BitVec.getElem_extractLsb']
  rw [h]
  simp [BitVec.getLsbD_eq_getElem hi]

@[simp] theorem loByte_append (a b : Byte) : loByte (a ++ b : BitVec (8 + 8)) = b := by
  ext i hi
  have h := BitVec.getLsbD_append (x := a) (y := b) (i := 0 + i)
  simp only [loByte, BitVec.getElem_extractLsb']
  rw [h]
  simp only [Nat.zero_add, hi, if_true, BitVec.getLsbD_eq_getElem hi]

theorem getLastD_snoc (F : List Byte) (b d : Byte) : (F ++ [b]).getLastD d = b := by simp

@[simp] theorem shortBytes_length (w : ShortWire) : w.bytes.length = 16 := rfl

theorem longBytes_length (w : LongWire) (h7 : w.gap7.length = 4) (h30 : w.gap30.length = 22) :
    w.bytes.length = 56 := by
  simp [LongWire.bytes, h7, h30]

/-- The last byte of a Long frame is its checksum byte. -/
theorem longBytes_last (w : LongWire) : w.bytes.getLastD 0x00 = w.csum := by
  have : ∀ (X : List Byte) (a b c d : Byte), (X ++ [a, b, c, d]).getLastD 0x00 = d := by
    intro X a b c d
    rw [show X ++ [a, b, c, d] = (X ++ [a, b, c]) ++ [d] by simp]
    exact getLastD_snoc _ _ _
  exact this _ _ _ _ _

/-- A list of four bytes is its four bytes. -/
theorem list4 {l : List Byte} (h : l.length = 4) : ∃ a b c d, l = [a, b, c, d] := by
  match l, h with
  | [a, b, c, d], _ => exact ⟨a, b, c, d, rfl⟩

/-- A list is its first bytes and its rest. -/
theorem list_uncons {l : List Byte} {n : Nat} (h : l.length = n + 1) :
    ∃ a m, l = a :: m ∧ m.length = n := by
  match l, h with
  | a :: m, h => exact ⟨a, m, rfl, by simpa using h⟩

/-! ### The classes -/

theorem classify_short (n : Nat) (lf : Byte) : classify n lf = .short ↔ lf = 0x0B ∧ n = 16 := by
  unfold classify Config.shortField Config.shortLen
  split
  · simp_all
  · split <;> simp_all

theorem classify_long (n : Nat) (lf : Byte) : classify n lf = .long ↔ lf = 0x33 ∧ n = 56 := by
  unfold classify Config.shortField Config.longField Config.shortLen Config.longLen
  split
  · rename_i h
    obtain ⟨h1, h2⟩ := h
    subst h2
    simp
  · split <;> simp_all

/-- A shape is known exactly when the class is not Unknown. -/
theorem knownShape_iff (F : List Byte) : knownShape F = true ↔ classify F.length (rd8 F 3) ≠ .unknown := by
  have key : ∀ (b : Byte) (n : Nat), F.length = n → 4 ≤ n → (F[3]? = some b ↔ rd8 F 3 = b) := by
    intro b n hn h4
    have h3 : 3 < F.length := by omega
    rw [rd8_of_lt h3, List.getElem?_eq_getElem h3]
    simp
  unfold knownShape classify
  by_cases h16 : F.length = 16
  · simp only [Config.shortLen, Config.longLen, h16, key _ 16 h16 (by omega)]
    by_cases hb : rd8 F 3 = Config.shortField <;> simp [hb]
  · by_cases h56 : F.length = 56
    · simp only [Config.shortLen, Config.longLen, h56, key _ 56 h56 (by omega)]
      by_cases hb : rd8 F 3 = Config.longField <;> simp [hb]
    · simp [Config.shortLen, Config.longLen, h16, h56]

end Sys2Proof
end

