-- ==== Sys2Proof/Laws/Memory.lean ====
section
/-!
SUPPORT. The cells of FB.BUF: a read after a write, and that every memory operation keeps the canonical form.
-/

namespace Sys2Proof.Machine

@[simp] theorem read_nil (a : Nat) : Memory.read [] a = 0x00 := rfl

theorem read_erase (m : Memory) (a c : Nat) : (m.erase a).read c = if c = a then 0x00 else m.read c := by
  induction m with
  | nil => simp [Memory.erase]
  | cons x m ih =>
    obtain ⟨b, u⟩ := x
    simp only [Memory.erase, List.filter_cons] at ih ⊢
    by_cases hb : b = a
    · subst hb
      by_cases hc : c = b <;> simp_all [Memory.read]
    · by_cases hc : c = b <;> simp_all [Memory.read]

theorem read_insert (m : Memory) (a c : Nat) (v : Byte)
    (hm : ∀ x ∈ m, x.1 ≠ a) : (m.insert a v).read c = if c = a then v else m.read c := by
  induction m with
  | nil => simp [Memory.insert, Memory.read]
  | cons x m ih =>
    obtain ⟨b, u⟩ := x
    have hb : b ≠ a := hm (b, u) (by simp)
    have ih := ih (fun y hy => hm y (by simp [hy]))
    simp only [Memory.insert]
    by_cases hab : a < b
    · simp [hab, Memory.read]
    · by_cases hc : c = b
      · subst hc
        simp [hab, Memory.read, hb]
      · simp [hab, Memory.read, hc, ih]

theorem mem_erase_ne {m : Memory} {a : Nat} {x : Host.Cell} (h : x ∈ m.erase a) : x.1 ≠ a := by
  simpa using (List.mem_filter.mp h).2

/-- A read after a write: the cell written holds the byte, every other cell what it held. -/
theorem read_write (m : Memory) (a c : Nat) (v : Byte) :
    (m.write a v).read c = if c = a then v else m.read c := by
  unfold Memory.write
  split
  · rename_i h
    simp [read_erase, h]
  · rw [read_insert _ _ _ _ (fun x hx => mem_erase_ne hx), read_erase]
    by_cases hc : c = a <;> simp [hc]

@[simp] theorem read_write_same (m : Memory) (a : Nat) (v : Byte) : (m.write a v).read a = v := by
  simp [read_write]

theorem read_write_ne (m : Memory) (a c : Nat) (v : Byte) (h : c ≠ a) : (m.write a v).read c = m.read c := by
  simp [read_write, h]

/-! ### The canonical form -/

theorem wfFrom_mono {m : Memory} {lo lo' : Nat} (hl : lo' ≤ lo) (h : Memory.wfFrom lo m = true) :
    Memory.wfFrom lo' m = true := by
  cases m with
  | nil => rfl
  | cons x m =>
    simp only [Memory.wfFrom, Bool.and_eq_true, decide_eq_true_eq] at h ⊢
    exact ⟨⟨by omega, h.1.2⟩, h.2⟩

theorem wfFrom_erase (m : Memory) (a lo : Nat) (h : Memory.wfFrom lo m = true) :
    Memory.wfFrom lo (m.erase a) = true := by
  induction m generalizing lo with
  | nil => rfl
  | cons x m ih =>
    obtain ⟨b, u⟩ := x
    simp only [Memory.wfFrom, Bool.and_eq_true, decide_eq_true_eq] at h
    have ih' := ih (b + 1) h.2
    by_cases hb : b = a
    · have : Memory.erase ((b, u) :: m) a = Memory.erase m a := by simp [Memory.erase, hb]
      rw [this]
      exact wfFrom_mono (by omega) ih'
    · have : Memory.erase ((b, u) :: m) a = (b, u) :: Memory.erase m a := by
        simp [Memory.erase, hb]
      rw [this]
      simp only [Memory.wfFrom, Bool.and_eq_true, decide_eq_true_eq]
      exact ⟨h.1, ih'⟩

theorem wfFrom_insert (m : Memory) (a lo : Nat) (v : Byte) (hv : v ≠ 0x00) (hl : lo ≤ a)
    (hm : ∀ x ∈ m, x.1 ≠ a) (h : Memory.wfFrom lo m = true) : Memory.wfFrom lo (m.insert a v) = true := by
  induction m generalizing lo with
  | nil =>
    simp only [Memory.insert, Memory.wfFrom, Bool.and_eq_true, decide_eq_true_eq]
    exact ⟨⟨hl, hv⟩, trivial⟩
  | cons x m ih =>
    obtain ⟨b, u⟩ := x
    have hb : b ≠ a := hm (b, u) (by simp)
    simp only [Memory.wfFrom, Bool.and_eq_true, decide_eq_true_eq] at h
    simp only [Memory.insert]
    by_cases hab : a < b
    · simp only [hab, if_true, Memory.wfFrom, Bool.and_eq_true, decide_eq_true_eq]
      exact ⟨⟨hl, hv⟩, ⟨by omega, h.1.2⟩, h.2⟩
    · simp only [hab, if_false, Memory.wfFrom, Bool.and_eq_true, decide_eq_true_eq]
      exact ⟨h.1, ih (b + 1) (by omega) (fun y hy => hm y (by simp [hy])) h.2⟩

/-- A write keeps the canonical form. -/
theorem wf_write (m : Memory) (a : Nat) (v : Byte) (h : m.wf = true) : (m.write a v).wf = true := by
  unfold Memory.wf Memory.write at *
  split
  · exact wfFrom_erase m a 0 h
  · rename_i hv
    exact wfFrom_insert _ a 0 v hv (Nat.zero_le a) (fun x hx => mem_erase_ne hx) (wfFrom_erase m a 0 h)

@[simp] theorem wf_nil : Memory.wf [] = true := rfl

theorem wfFrom_ofBytes (l : List Byte) (i : Nat) : Memory.wfFrom i (Memory.ofBytes i l) = true := by
  induction l generalizing i with
  | nil => rfl
  | cons b l ih =>
    unfold Memory.ofBytes
    split
    · exact wfFrom_mono (Nat.le_succ i) (ih (i + 1))
    · rename_i hb
      simp only [Memory.wfFrom, Bool.and_eq_true, decide_eq_true_eq]
      exact ⟨⟨Nat.le_refl i, hb⟩, ih (i + 1)⟩

/-- A loaded frame is in canonical form. -/
theorem wf_ofBytes (l : List Byte) : (Memory.ofBytes 0 l).wf = true := wfFrom_ofBytes l 0

theorem read_ofBytes_lt (l : List Byte) (i a : Nat) (h : a < i) : (Memory.ofBytes i l).read a = 0x00 := by
  induction l generalizing i with
  | nil => rfl
  | cons b l ih =>
    unfold Memory.ofBytes
    split
    · exact ih (i + 1) (by omega)
    · have : a ≠ i := by omega
      simp [Memory.read, this, ih (i + 1) (by omega)]

/-- The cells of a loaded frame hold its bytes. -/
theorem read_ofBytes (l : List Byte) (i j : Nat) : (Memory.ofBytes i l).read (i + j) = rd8 l j := by
  induction l generalizing i j with
  | nil => simp [Memory.ofBytes, rd8]
  | cons b l ih =>
    unfold Memory.ofBytes
    cases j with
    | zero =>
      split
      · rename_i hb
        show (Memory.ofBytes (i + 1) l).read i = rd8 (b :: l) 0
        rw [read_ofBytes_lt l (i + 1) i (by omega)]
        simp [rd8, hb]
      · simp [Memory.read, rd8]
    | succ j =>
      have e : i + (j + 1) = (i + 1) + j := by omega
      have hr : rd8 (b :: l) (j + 1) = rd8 l j := by simp [rd8]
      split
      · rw [e, ih, hr]
      · have : i + (j + 1) ≠ i := by omega
        simp only [Memory.read, this, if_false]
        rw [e, ih, hr]

/-- A write lists no cell but the one written and those listed before. -/
theorem write_bounded (m : Memory) (a d : Nat) (v : Byte) (ha : a < d)
    (h : m.all (fun c => decide (c.1 < d)) = true) : (m.write a v).all (fun c => decide (c.1 < d)) = true := by
  have he : (m.erase a).all (fun c => decide (c.1 < d)) = true := by
    simp only [List.all_eq_true, decide_eq_true_eq] at h ⊢
    exact fun x hx => h x (List.mem_of_mem_filter hx)
  unfold Memory.write
  split
  · exact he
  · generalize m.erase a = m' at he
    induction m' with
    | nil => simp [Memory.insert, ha]
    | cons x m' ih =>
      obtain ⟨b, u⟩ := x
      simp only [List.all_cons, Bool.and_eq_true, decide_eq_true_eq] at he
      unfold Memory.insert
      split
      · simp [ha, he.1, he.2]
      · simp only [List.all_cons, Bool.and_eq_true, decide_eq_true_eq]
        exact ⟨he.1, ih he.2⟩

end Sys2Proof.Machine
end

