-- ==== Sys2Proof/Laws/State.lean ====
section
/-!
SUPPORT. The fields of the state after each update of Machine/Ops.lean: one lemma per field per update, so that no later proof
unfolds a record update.
-/

namespace Sys2Proof.Machine

/-! ### beginCycle -/

@[simp] theorem beginCycle_build (s : State) : (s.beginCycle).build = s.build := rfl
@[simp] theorem beginCycle_fb (s : State) : (s.beginCycle).fb = s.fb := rfl
@[simp] theorem beginCycle_acc (s : State) : (s.beginCycle).acc = s.acc := rfl
@[simp] theorem beginCycle_dec (s : State) : (s.beginCycle).dec = s.dec := rfl
@[simp] theorem beginCycle_snap (s : State) : (s.beginCycle).snap = s.snap := rfl
@[simp] theorem beginCycle_ev (s : State) : (s.beginCycle).ev = EV.quiet := rfl
@[simp] theorem beginCycle_txFrame (s : State) : (s.beginCycle).txFrame = Config.freeTxFrame s.freeCtr := rfl
@[simp] theorem beginCycle_inputs (s : State) : (s.beginCycle).inputs = s.inputs := rfl
@[simp] theorem beginCycle_freeCtr (s : State) : (s.beginCycle).freeCtr = s.freeCtr + 1 := rfl

/-! ### receive -/

@[simp] theorem receive_build (b : Byte) (now : Nat) (s : State) : (s.receive b now).build = s.build := rfl
@[simp] theorem receive_fb (b : Byte) (now : Nat) (s : State) :
    (s.receive b now).fb = receiveFb s.build b now s.fb :=
  rfl
@[simp] theorem receive_acc (b : Byte) (now : Nat) (s : State) :
    (s.receive b now).acc = accUpdate s.fb.len s.acc b :=
  rfl
@[simp] theorem receive_dec (b : Byte) (now : Nat) (s : State) : (s.receive b now).dec = s.dec := rfl
@[simp] theorem receive_snap (b : Byte) (now : Nat) (s : State) : (s.receive b now).snap = s.snap := rfl
@[simp] theorem receive_ev (b : Byte) (now : Nat) (s : State) : (s.receive b now).ev = s.ev := rfl
@[simp] theorem receive_txFrame (b : Byte) (now : Nat) (s : State) : (s.receive b now).txFrame = s.txFrame := rfl
@[simp] theorem receive_inputs (b : Byte) (now : Nat) (s : State) : (s.receive b now).inputs = s.inputs := rfl
@[simp] theorem receive_freeCtr (b : Byte) (now : Nat) (s : State) : (s.receive b now).freeCtr = s.freeCtr := rfl

/-! ### raiseWarn -/

@[simp] theorem raiseWarn_build (k : ErrKind) (s : State) : (s.raiseWarn k).build = s.build := rfl
@[simp] theorem raiseWarn_fb (k : ErrKind) (s : State) : (s.raiseWarn k).fb = s.fb := rfl
@[simp] theorem raiseWarn_acc (k : ErrKind) (s : State) : (s.raiseWarn k).acc = s.acc := rfl
@[simp] theorem raiseWarn_dec (k : ErrKind) (s : State) : (s.raiseWarn k).dec = { s.dec with err := k } := rfl
@[simp] theorem raiseWarn_snap (k : ErrKind) (s : State) : (s.raiseWarn k).snap = s.snap := rfl
@[simp] theorem raiseWarn_ev (k : ErrKind) (s : State) : (s.raiseWarn k).ev = { s.ev with warn := true } := rfl
@[simp] theorem raiseWarn_txFrame (k : ErrKind) (s : State) : (s.raiseWarn k).txFrame = s.txFrame := rfl
@[simp] theorem raiseWarn_inputs (k : ErrKind) (s : State) : (s.raiseWarn k).inputs = s.inputs := rfl
@[simp] theorem raiseWarn_freeCtr (k : ErrKind) (s : State) : (s.raiseWarn k).freeCtr = s.freeCtr := rfl

/-! ### writeDec -/

@[simp] theorem writeDec_build (d : DecodedFrame) (v : FrameView) (s : State) :
    (s.writeDec d v).build = s.build :=
  rfl
@[simp] theorem writeDec_fb (d : DecodedFrame) (v : FrameView) (s : State) : (s.writeDec d v).fb = s.fb := rfl
@[simp] theorem writeDec_acc (d : DecodedFrame) (v : FrameView) (s : State) : (s.writeDec d v).acc = s.acc := rfl
@[simp] theorem writeDec_snap (d : DecodedFrame) (v : FrameView) (s : State) : (s.writeDec d v).snap = s.snap := rfl
@[simp] theorem writeDec_ev (d : DecodedFrame) (v : FrameView) (s : State) : (s.writeDec d v).ev = s.ev := rfl
@[simp] theorem writeDec_txFrame (d : DecodedFrame) (v : FrameView) (s : State) :
    (s.writeDec d v).txFrame = s.txFrame :=
  rfl
@[simp] theorem writeDec_inputs (d : DecodedFrame) (v : FrameView) (s : State) :
    (s.writeDec d v).inputs = s.inputs :=
  rfl
@[simp] theorem writeDec_freeCtr (d : DecodedFrame) (v : FrameView) (s : State) :
    (s.writeDec d v).freeCtr = s.freeCtr :=
  rfl

/-! ### clearFrame -/

@[simp] theorem clearFrame_build (s : State) : (s.clearFrame).build = s.build := rfl
@[simp] theorem clearFrame_fb (s : State) : (s.clearFrame).fb = { s.fb with len := 0, nbytes := 0 } := rfl
@[simp] theorem clearFrame_acc (s : State) : (s.clearFrame).acc = 0x00 := rfl
@[simp] theorem clearFrame_dec (s : State) : (s.clearFrame).dec = s.dec := rfl
@[simp] theorem clearFrame_snap (s : State) : (s.clearFrame).snap = s.snap := rfl
@[simp] theorem clearFrame_ev (s : State) : (s.clearFrame).ev = s.ev := rfl
@[simp] theorem clearFrame_txFrame (s : State) : (s.clearFrame).txFrame = s.txFrame := rfl
@[simp] theorem clearFrame_inputs (s : State) : (s.clearFrame).inputs = s.inputs := rfl
@[simp] theorem clearFrame_freeCtr (s : State) : (s.clearFrame).freeCtr = s.freeCtr := rfl

/-! ### encodeOut -/

@[simp] theorem encodeOut_build (a : EncArgs) (s : State) : (s.encodeOut a).build = s.build := rfl
@[simp] theorem encodeOut_fb (a : EncArgs) (s : State) : (s.encodeOut a).fb = s.fb := rfl
@[simp] theorem encodeOut_acc (a : EncArgs) (s : State) : (s.encodeOut a).acc = s.acc := rfl
@[simp] theorem encodeOut_dec (a : EncArgs) (s : State) : (s.encodeOut a).dec = s.dec := rfl
@[simp] theorem encodeOut_snap (a : EncArgs) (s : State) : (s.encodeOut a).snap = s.snap := rfl
@[simp] theorem encodeOut_ev (a : EncArgs) (s : State) : (s.encodeOut a).ev = { s.ev with txValid := true } := rfl
@[simp] theorem encodeOut_txFrame (a : EncArgs) (s : State) : (s.encodeOut a).txFrame = encodedFrame a := rfl
@[simp] theorem encodeOut_inputs (a : EncArgs) (s : State) : (s.encodeOut a).inputs = s.inputs := rfl
@[simp] theorem encodeOut_freeCtr (a : EncArgs) (s : State) : (s.encodeOut a).freeCtr = s.freeCtr := rfl

/-! ### resetCycle -/

@[simp] theorem resetCycle_build (s : State) : (s.resetCycle).build = s.build := rfl
@[simp] theorem resetCycle_fb (s : State) : (s.resetCycle).fb = { FB.reset with buf := s.fb.buf } := rfl
@[simp] theorem resetCycle_acc (s : State) : (s.resetCycle).acc = 0 := rfl
@[simp] theorem resetCycle_dec (s : State) : (s.resetCycle).dec = DEC.reset := rfl
@[simp] theorem resetCycle_snap (s : State) : (s.resetCycle).snap = SNAP.reset := rfl
@[simp] theorem resetCycle_ev (s : State) : (s.resetCycle).ev = EV.quiet := rfl
@[simp] theorem resetCycle_txFrame (s : State) : (s.resetCycle).txFrame = Config.freeTxFrame s.freeCtr := rfl
@[simp] theorem resetCycle_inputs (s : State) : (s.resetCycle).inputs = s.inputs := rfl
@[simp] theorem resetCycle_freeCtr (s : State) : (s.resetCycle).freeCtr = s.freeCtr + 1 := rfl

/-! ### takeCycle -/

@[simp] theorem takeCycle_build (s : State) : (s.takeCycle).build = s.build := rfl
@[simp] theorem takeCycle_fb (s : State) : (s.takeCycle).fb = s.fb := rfl
@[simp] theorem takeCycle_acc (s : State) : (s.takeCycle).acc = s.acc := rfl
@[simp] theorem takeCycle_dec (s : State) : (s.takeCycle).dec = s.dec := rfl
@[simp] theorem takeCycle_snap (s : State) : (s.takeCycle).snap = s.snap := rfl
@[simp] theorem takeCycle_ev (s : State) : (s.takeCycle).ev = s.ev := rfl
@[simp] theorem takeCycle_txFrame (s : State) : (s.takeCycle).txFrame = s.txFrame := rfl
@[simp] theorem takeCycle_inputs (s : State) : (s.takeCycle).inputs = s.inputs.tail := rfl
@[simp] theorem takeCycle_freeCtr (s : State) : (s.takeCycle).freeCtr = s.freeCtr := rfl

/-! ### present -/

@[simp] theorem present_build (p : Ports) (s : State) : (s.present p).build = s.build := rfl
@[simp] theorem present_fb (p : Ports) (s : State) : (s.present p).fb = s.fb := rfl
@[simp] theorem present_acc (p : Ports) (s : State) : (s.present p).acc = s.acc := rfl
@[simp] theorem present_dec (p : Ports) (s : State) : (s.present p).dec = s.dec := rfl
@[simp] theorem present_snap (p : Ports) (s : State) : (s.present p).snap = s.snap := rfl
@[simp] theorem present_ev (p : Ports) (s : State) : (s.present p).ev = s.ev := rfl
@[simp] theorem present_txFrame (p : Ports) (s : State) : (s.present p).txFrame = s.txFrame := rfl
@[simp] theorem present_inputs (p : Ports) (s : State) : (s.present p).inputs = p :: s.inputs := rfl
@[simp] theorem present_freeCtr (p : Ports) (s : State) : (s.present p).freeCtr = s.freeCtr := rfl

/-! ### writeSnap -/

@[simp] theorem writeSnap_build (d : DecodedFrame) (s : State) : (s.writeSnap d).build = s.build := by
  cases d <;> rfl
@[simp] theorem writeSnap_fb (d : DecodedFrame) (s : State) : (s.writeSnap d).fb = s.fb := by
  cases d <;> rfl
@[simp] theorem writeSnap_acc (d : DecodedFrame) (s : State) : (s.writeSnap d).acc = s.acc := by
  cases d <;> rfl
@[simp] theorem writeSnap_dec (d : DecodedFrame) (s : State) : (s.writeSnap d).dec = s.dec := by
  cases d <;> rfl
@[simp] theorem writeSnap_ev (d : DecodedFrame) (s : State) : (s.writeSnap d).ev = s.ev := by
  cases d <;> rfl
@[simp] theorem writeSnap_txFrame (d : DecodedFrame) (s : State) : (s.writeSnap d).txFrame = s.txFrame := by
  cases d <;> rfl
@[simp] theorem writeSnap_inputs (d : DecodedFrame) (s : State) : (s.writeSnap d).inputs = s.inputs := by
  cases d <;> rfl
@[simp] theorem writeSnap_freeCtr (d : DecodedFrame) (s : State) : (s.writeSnap d).freeCtr = s.freeCtr := by
  cases d <;> rfl
@[simp] theorem writeSnap_long (f : SNAP) (s : State) : (s.writeSnap (.long f)).snap = f := rfl
@[simp] theorem writeSnap_short (f : ShortFields) (s : State) : (s.writeSnap (.short f)).snap = s.snap := rfl
@[simp] theorem writeSnap_unknown (n : Nat) (k : ErrKind) (s : State) : (s.writeSnap (.unknown n k)).snap = s.snap :=
  rfl

/-! ### frameReady -/

@[simp] theorem frameReady_build (k : ErrKind) (s : State) : (s.frameReady k).build = s.build := by
  cases k <;> rfl
@[simp] theorem frameReady_fb (k : ErrKind) (s : State) : (s.frameReady k).fb = s.fb := by
  cases k <;> rfl
@[simp] theorem frameReady_acc (k : ErrKind) (s : State) : (s.frameReady k).acc = s.acc := by
  cases k <;> rfl
@[simp] theorem frameReady_snap (k : ErrKind) (s : State) : (s.frameReady k).snap = s.snap := by
  cases k <;> rfl
@[simp] theorem frameReady_txFrame (k : ErrKind) (s : State) : (s.frameReady k).txFrame = s.txFrame := by
  cases k <;> rfl
@[simp] theorem frameReady_inputs (k : ErrKind) (s : State) : (s.frameReady k).inputs = s.inputs := by
  cases k <;> rfl
@[simp] theorem frameReady_freeCtr (k : ErrKind) (s : State) : (s.frameReady k).freeCtr = s.freeCtr := by
  cases k <;> rfl
@[simp] theorem frameReady_ev (k : ErrKind) (s : State) :
    (s.frameReady k).ev = { s.ev with frameValid := true, warn := s.ev.warn || warnFlag k } := by
  cases k <;> simp [State.frameReady, State.raiseWarn, warnFlag]
theorem frameReady_dec (k : ErrKind) (s : State) (h : s.dec.err = k) : (s.frameReady k).dec = s.dec := by
  subst h
  unfold State.frameReady
  split <;> rfl

/-! ### writeShort -/

@[simp] theorem writeShort_valid (d : DecodedFrame) (c : DEC) : (writeShort d c).valid = c.valid := by cases d <;> rfl
@[simp] theorem writeShort_tag (d : DecodedFrame) (c : DEC) : (writeShort d c).tag = c.tag := by cases d <;> rfl
@[simp] theorem writeShort_len (d : DecodedFrame) (c : DEC) : (writeShort d c).len = c.len := by cases d <;> rfl
@[simp] theorem writeShort_err (d : DecodedFrame) (c : DEC) : (writeShort d c).err = c.err := by cases d <;> rfl
@[simp] theorem writeShort_csumRx (d : DecodedFrame) (c : DEC) : (writeShort d c).csumRx = c.csumRx := by cases d <;> rfl
@[simp] theorem writeShort_csumCalc (d : DecodedFrame) (c : DEC) : (writeShort d c).csumCalc = c.csumCalc := by cases d <;> rfl
@[simp] theorem writeShort_csumOk (d : DecodedFrame) (c : DEC) : (writeShort d c).csumOk = c.csumOk := by cases d <;> rfl

/-! ### The optional operations of a cycle -/

@[simp] theorem receiveOpt_none (now : Nat) (s : State) : s.receiveOpt none now = s := rfl
@[simp] theorem receiveOpt_some (b : Byte) (now : Nat) (s : State) : s.receiveOpt (some b) now = s.receive b now := rfl
@[simp] theorem encodeOpt_none (s : State) : s.encodeOpt none = s := rfl
@[simp] theorem encodeOpt_some (a : EncArgs) (s : State) : s.encodeOpt (some a) = s.encodeOut a := rfl
@[simp] theorem receiveOpt_build (rx : Option Byte) (now : Nat) (s : State) : (s.receiveOpt rx now).build = s.build := by
  cases rx <;> rfl
@[simp] theorem receiveOpt_dec (rx : Option Byte) (now : Nat) (s : State) : (s.receiveOpt rx now).dec = s.dec := by
  cases rx <;> rfl
@[simp] theorem receiveOpt_snap (rx : Option Byte) (now : Nat) (s : State) : (s.receiveOpt rx now).snap = s.snap := by
  cases rx <;> rfl
@[simp] theorem receiveOpt_ev (rx : Option Byte) (now : Nat) (s : State) : (s.receiveOpt rx now).ev = s.ev := by
  cases rx <;> rfl
@[simp] theorem receiveOpt_txFrame (rx : Option Byte) (now : Nat) (s : State) : (s.receiveOpt rx now).txFrame = s.txFrame := by
  cases rx <;> rfl
@[simp] theorem receiveOpt_inputs (rx : Option Byte) (now : Nat) (s : State) : (s.receiveOpt rx now).inputs = s.inputs := by
  cases rx <;> rfl
@[simp] theorem receiveOpt_freeCtr (rx : Option Byte) (now : Nat) (s : State) : (s.receiveOpt rx now).freeCtr = s.freeCtr := by
  cases rx <;> rfl
@[simp] theorem encodeOpt_build (enc : Option EncArgs) (s : State) : (s.encodeOpt enc).build = s.build := by
  cases enc <;> rfl
@[simp] theorem encodeOpt_fb (enc : Option EncArgs) (s : State) : (s.encodeOpt enc).fb = s.fb := by
  cases enc <;> rfl
@[simp] theorem encodeOpt_acc (enc : Option EncArgs) (s : State) : (s.encodeOpt enc).acc = s.acc := by
  cases enc <;> rfl
@[simp] theorem encodeOpt_dec (enc : Option EncArgs) (s : State) : (s.encodeOpt enc).dec = s.dec := by
  cases enc <;> rfl
@[simp] theorem encodeOpt_snap (enc : Option EncArgs) (s : State) : (s.encodeOpt enc).snap = s.snap := by
  cases enc <;> rfl
@[simp] theorem encodeOpt_inputs (enc : Option EncArgs) (s : State) : (s.encodeOpt enc).inputs = s.inputs := by
  cases enc <;> rfl
@[simp] theorem encodeOpt_freeCtr (enc : Option EncArgs) (s : State) : (s.encodeOpt enc).freeCtr = s.freeCtr := by
  cases enc <;> rfl

/-! ### The groups -/

@[simp] theorem quiet_frameValid : EV.quiet.frameValid = false := rfl
@[simp] theorem quiet_warn : EV.quiet.warn = false := rfl
@[simp] theorem quiet_txValid : EV.quiet.txValid = false := rfl

@[simp] theorem receiveFb_len (build : Build) (b : Byte) (now : Nat) (fb : FB) :
    (receiveFb build b now fb).len = if fb.len < build.lenMax then fb.len + 1 else fb.len := rfl
@[simp] theorem receiveFb_buf (build : Build) (b : Byte) (now : Nat) (fb : FB) :
    (receiveFb build b now fb).buf = if fb.len < build.bufDepth then fb.buf.write fb.len b else fb.buf := rfl
@[simp] theorem receiveFb_lastTs (build : Build) (b : Byte) (now : Nat) (fb : FB) :
    (receiveFb build b now fb).lastTs = sampleTs build now := rfl
@[simp] theorem receiveFb_lastByte (build : Build) (b : Byte) (now : Nat) (fb : FB) :
    (receiveFb build b now fb).lastByte = b := rfl
@[simp] theorem receiveFb_nbytes (build : Build) (b : Byte) (now : Nat) (fb : FB) :
    (receiveFb build b now fb).nbytes = fb.nbytes + 1 := rfl

end Sys2Proof.Machine
end

