-- ==== Sys2Proof/Laws/Ops.lean ====
section
/-!
SUPPORT. What each shared operation of Machine/Ops.lean can do, said once: the emission of a frame, POLL's choice, the bytes the
buffer holds, and the next state of every instruction.
-/

namespace Sys2Proof.Machine

/-! ### The emission -/

@[simp] theorem emit_build (v : FrameView) (s : State) : (s.emit v).build = s.build := by simp [State.emit]
@[simp] theorem emit_fb (v : FrameView) (s : State) : (s.emit v).fb = { s.fb with len := 0, nbytes := 0 } := by
  simp [State.emit]
@[simp] theorem emit_acc (v : FrameView) (s : State) : (s.emit v).acc = 0x00 := by simp [State.emit]
@[simp] theorem emit_txFrame (v : FrameView) (s : State) : (s.emit v).txFrame = s.txFrame := by simp [State.emit]
@[simp] theorem emit_inputs (v : FrameView) (s : State) : (s.emit v).inputs = s.inputs := by simp [State.emit]
@[simp] theorem emit_freeCtr (v : FrameView) (s : State) : (s.emit v).freeCtr = s.freeCtr := by simp [State.emit]

@[simp] theorem emit_snap (v : FrameView) (s : State) :
    (s.emit v).snap = ((s.writeDec (decodeView s.build v) v).writeSnap (decodeView s.build v)).snap := by
  simp [State.emit]

@[simp] theorem emit_ev (v : FrameView) (s : State) :
    (s.emit v).ev =
      { s.ev with frameValid := true, warn := s.ev.warn || warnFlag (decodeView s.build v).err } := by
  simp [State.emit]

/-- DEC after an emission is the write-back of R121. -/
@[simp] theorem emit_dec (v : FrameView) (s : State) :
    (s.emit v).dec = (s.writeDec (decodeView s.build v) v).dec := by
  unfold State.emit
  rw [frameReady_dec _ _ (by simp [State.writeDec])]
  simp

@[simp] theorem writeDec_err (d : DecodedFrame) (v : FrameView) (s : State) : (s.writeDec d v).dec.err = d.err := by
  simp [State.writeDec]

/-! ### POLL -/

/-- POLL either closes the buffer and emits what it holds, or does nothing (R102). -/
theorem pollAt_cases (now : Nat) (s : State) :
    (closes s.build s.fb.len now s.fb.lastTs = true ∧ s.pollAt now = s.emit s.heldView) ∨
    (closes s.build s.fb.len now s.fb.lastTs = false ∧ s.pollAt now = s) := by
  unfold State.pollAt
  cases closes s.build s.fb.len now s.fb.lastTs <;> simp

theorem closes_iff (b : Build) (len now last : Nat) :
    closes b len now last = true ↔ len ≠ 0 ∧ b.ibt < elapsed b now last := by
  simp [closes]

@[simp] theorem pollAt_build (now : Nat) (s : State) : (s.pollAt now).build = s.build := by
  rcases pollAt_cases now s with ⟨-, h⟩ | ⟨-, h⟩ <;> simp [h]
@[simp] theorem pollAt_txFrame (now : Nat) (s : State) : (s.pollAt now).txFrame = s.txFrame := by
  rcases pollAt_cases now s with ⟨-, h⟩ | ⟨-, h⟩ <;> simp [h]
@[simp] theorem pollAt_inputs (now : Nat) (s : State) : (s.pollAt now).inputs = s.inputs := by
  rcases pollAt_cases now s with ⟨-, h⟩ | ⟨-, h⟩ <;> simp [h]
@[simp] theorem pollAt_freeCtr (now : Nat) (s : State) : (s.pollAt now).freeCtr = s.freeCtr := by
  rcases pollAt_cases now s with ⟨-, h⟩ | ⟨-, h⟩ <;> simp [h]

/-! ### The view -/

@[simp] theorem beginCycle_heldView (s : State) : s.beginCycle.heldView = s.heldView := rfl
@[simp] theorem beginCycle_storedBytes (s : State) : s.beginCycle.storedBytes = s.storedBytes := rfl

theorem storedBytes_length (s : State) : s.storedBytes.length = s.storedCount := by simp [State.storedBytes]

/-- The byte at offset i of the stored bytes is the one in cell i. -/
theorem rd8_storedBytes (s : State) (i : Nat) (h : i < s.storedCount) : rd8 s.storedBytes i = s.fb.buf.read i := by
  rw [rd8_of_lt (by rw [storedBytes_length]; exact h)]
  simp [State.storedBytes]

/-- Two states with the same cells below the count store the same bytes. -/
theorem storedBytes_congr {s t : State} (hc : s.storedCount = t.storedCount)
    (h : ∀ i, i < s.storedCount → s.fb.buf.read i = t.fb.buf.read i) : s.storedBytes = t.storedBytes := by
  unfold State.storedBytes
  rw [← hc]
  apply List.map_congr_left
  intro i hi
  exact h i (by simpa using hi)

/-! ### DECODE -/

/-- What DECODE can answer (R107). -/
theorem decodeView_cases (b : Build) (v : FrameView) :
    (v.n = 0 ∧ decodeView b v = .unknown 0 .emptyFrame) ∨
    (v.n ≠ 0 ∧ v.n ≤ 3 ∧ decodeView b v = .unknown (min v.n b.lenMax) .frameTooShortToClassify) ∨
    (3 < v.n ∧ classify v.n (rd8 v.stored 3) = .unknown ∧
      decodeView b v = .unknown (min v.n b.lenMax) .unrecognizedFrameShape) ∨
    (3 < v.n ∧ classify v.n (rd8 v.stored 3) ≠ .unknown ∧ mismatchFlag b v.csCalc v.csRx = true ∧
      decodeView b v = .unknown (min v.n b.lenMax) .checksumMismatch) ∨
    (3 < v.n ∧ classify v.n (rd8 v.stored 3) = .short ∧ mismatchFlag b v.csCalc v.csRx = false ∧
      decodeView b v = .short (shortFields v.stored)) ∨
    (3 < v.n ∧ classify v.n (rd8 v.stored 3) = .long ∧ mismatchFlag b v.csCalc v.csRx = false ∧
      decodeView b v = .long (longFields v.stored)) := by
  unfold decodeView
  by_cases h0 : v.n = 0
  · simp [h0]
  by_cases h3 : v.n ≤ 3
  · simp [h0, h3]
  have h4 : 3 < v.n := by omega
  cases hc : classify v.n (rd8 v.stored 3) <;> cases hm : mismatchFlag b v.csCalc v.csRx <;> simp [h0, h3, h4]

/-- The emission of a frame decoded as Short, as one record update. -/
theorem emit_short {v : FrameView} {s : State} {f : ShortFields} (h : decodeView s.build v = .short f) :
    s.emit v = { s with
      fb := { s.fb with len := 0, nbytes := 0 }
      acc := 0x00
      dec := { s.dec with
        valid := true, tag := .short, len := Config.shortLen, err := .noError, csumRx := v.csRx,
        csumCalc := v.csCalc, csumOk := csumOkFlag v.n v.csCalc v.csRx,
        sPowerPct := f.powerPct, sCmd := f.cmd, shortSeen := true }
      ev := { s.ev with frameValid := true } } := by
  unfold State.emit
  rw [h]
  rfl

/-- The emission of a frame decoded as Long, as one record update. -/
theorem emit_long {v : FrameView} {s : State} {f : SNAP} (h : decodeView s.build v = .long f) :
    s.emit v = { s with
      fb := { s.fb with len := 0, nbytes := 0 }
      acc := 0x00
      dec := { s.dec with
        valid := true, tag := .long, len := Config.longLen, err := .noError, csumRx := v.csRx,
        csumCalc := v.csCalc, csumOk := csumOkFlag v.n v.csCalc v.csRx }
      snap := f
      ev := { s.ev with frameValid := true } } := by
  unfold State.emit
  rw [h]
  rfl

/-- The emission of a frame decoded as Unknown, as one record update. -/
theorem emit_unknown {v : FrameView} {s : State} {n : Nat} {k : ErrKind}
    (h : decodeView s.build v = .unknown n k) (hk : k ≠ .noError) :
    s.emit v = { s with
      fb := { s.fb with len := 0, nbytes := 0 }
      acc := 0x00
      dec := { s.dec with
        valid := true, tag := .unknown, len := n, err := k, csumRx := v.csRx,
        csumCalc := v.csCalc, csumOk := csumOkFlag v.n v.csCalc v.csRx }
      ev := { s.ev with frameValid := true, warn := true } } := by
  unfold State.emit
  rw [h]
  cases k <;> first | exact absurd rfl hk | rfl

/-- An Unknown frame always has an error kind. -/
theorem decodeView_unknown_err {b : Build} {v : FrameView} {n : Nat} {k : ErrKind}
    (h : decodeView b v = .unknown n k) : k ≠ .noError := by
  rcases decodeView_cases b v with ⟨-, e⟩ | ⟨-, -, e⟩ | ⟨-, -, e⟩ | ⟨-, -, -, e⟩ | ⟨-, -, -, e⟩ | ⟨-, -, -, e⟩ <;>
    rw [e] at h <;> cases h <;> simp

/-- DECODE on the bytes of a Short frame. -/
theorem decodeView_shortBytes (b : Build) (w : ShortWire) :
    decodeView b (FrameView.ofBytes w.bytes) =
      if mismatchFlag b (checksum w.bytes) w.csum then .unknown (min 16 b.lenMax) .checksumMismatch
      else .short (shortFields w.bytes) := rfl

/-- DECODE on the bytes of a Long frame. -/
theorem decodeView_longBytes (b : Build) (w : LongWire) (h7 : w.gap7.length = 4) (h30 : w.gap30.length = 22) :
    decodeView b (FrameView.ofBytes w.bytes) =
      if mismatchFlag b (checksum w.bytes) w.csum then .unknown (min 56 b.lenMax) .checksumMismatch
      else .long (longFields w.bytes) := by
  have hn : w.bytes.length = 56 := longBytes_length w h7 h30
  have hl : w.bytes.getLastD 0x00 = w.csum := longBytes_last w
  have hc : classify 56 (rd8 w.bytes 3) = .long := (classify_long _ _).mpr ⟨rfl, rfl⟩
  simp only [decodeView, FrameView.ofBytes, hn, hl, hc]
  simp

/-! ### The next state of every instruction -/

/-- The next state of an instruction. -/
def nextState (i : Instr) (s : State) : State :=
  match i with
  | .nop => s.beginCycle
  | .rxByte b now enc => (s.beginCycle.receive b now).encodeOpt enc
  | .poll now rx enc => ((s.beginCycle.pollAt now).receiveOpt rx now).encodeOpt enc
  | .encodeShort a => s.beginCycle.encodeOut a
  | .reset => s.resetCycle
  | .shortFrame w => s.beginCycle.emit (FrameView.ofBytes w.bytes)
  | .longFrame w => s.beginCycle.emit (FrameView.ofBytes w.bytes)
  | .unknownFrame F => s.beginCycle.emit (FrameView.ofBytes F)

/-- Every instruction answers its next state: the block never stops. -/
theorem exec_eq (i : Instr) (s : State) : exec i s = .next (nextState i s) := by
  cases i <;> rfl

/-- One step answers the next state of the instruction the next cycle decodes to. -/
theorem step_eq (s : State) : step s = .next (nextState (decodeCycle s.nextPorts) s.takeCycle) :=
  exec_eq _ _

theorem exec_next_iff (i : Instr) (s t : State) : exec i s = .next t ↔ t = nextState i s := by
  rw [exec_eq]
  constructor
  · intro h
    injection h with h
    exact h.symm
  · intro h
    rw [h]

end Sys2Proof.Machine
end

