-- ==== Sys2Proof/Laws/Frame.lean ====
section
/-!
SUPPORT. A block loaded with a frame holds it.
-/

namespace Sys2Proof.Machine

/-- `State.loadFrame` leaves a block that holds the frame, however long it is. -/
theorem holds_loadFrame (s : State) (F : List Byte) : Holds (s.loadFrame F) F where
  count := rfl
  ghost := rfl
  cells := fun i h h' => by
    have hr := read_ofBytes (F.take s.build.bufDepth) 0 i
    rw [Nat.zero_add] at hr
    show (Memory.ofBytes 0 (F.take s.build.bufDepth)).read i = rd8 F i
    rw [hr]
    have h' : i < s.build.bufDepth := h'
    simp [rd8, h']
  accum := rfl
  final := fun _ => rfl

/-- The state after reset holds no byte. -/
theorem holds_reset : Holds State.reset [] := ⟨rfl, rfl, fun _ h => absurd h (Nat.not_lt_zero _), rfl, fun h => absurd rfl h⟩

end Sys2Proof.Machine
end

