-- ==== Sys2Proof/Laws/PerInstr.lean ====
section
/-!
SUPPORT. Statements made per instruction. RowMatch: the encoding of an instruction is one that its row of
spec/opcode_table.json describes, format, mask and match (30_encoding.md R86).
-/

namespace Sys2Proof.Laws.RowMatch

/-- The row of the instruction accepts its encoding. -/
def Statement (i : Instr) : Prop := i.row.accepts (encode i) = true

theorem nop : Statement .nop := by
  unfold Statement
  decide

theorem rxByte (byte : Byte) (now : Nat) (enc : Option EncArgs) : Statement (.rxByte byte now enc) := by
  cases enc <;>
  simp [Statement, TableRow.accepts, Instr.row, encode, Item.isFrame, Item.selector, Ports.withRx, Ports.withEnc,
    Ports.idle]

theorem poll (now : Nat) (rx : Option Byte) (enc : Option EncArgs) : Statement (.poll now rx enc) := by
  cases rx <;> cases enc <;>
  simp [Statement, TableRow.accepts, Instr.row, encode, Item.isFrame, Item.selector, Ports.withRx, Ports.withEnc,
    Ports.idle]

theorem encodeShort (args : EncArgs) : Statement (.encodeShort args) := by
  simp [Statement, TableRow.accepts, Instr.row, encode, Item.isFrame, Item.selector, Ports.withEnc, Ports.idle]

theorem reset : Statement .reset := by
  unfold Statement
  decide

theorem shortFrame (w : ShortWire) : Statement (.shortFrame w) := by
  have h : rd8 w.bytes 3 = 0x0B := rfl
  simp only [Statement, TableRow.accepts, Instr.row, encode, Item.isFrame, Item.selector, h]
  decide

theorem longFrame (w : LongWire) : Statement (.longFrame w) := by
  have h : rd8 w.bytes 3 = 0x33 := rfl
  simp only [Statement, TableRow.accepts, Instr.row, encode, Item.isFrame, Item.selector, h]
  decide

theorem unknownFrame (bytes : List Byte) : Statement (.unknownFrame bytes) := by
  simp [Statement, TableRow.accepts, Instr.row, encode, Item.isFrame]

end Sys2Proof.Laws.RowMatch
end

