-- ==== Sys2Proof/Laws/Readings.lean ====
section
/-!
SUPPORT. When the host's readings of DEC and SNAP are present, and what they hold.
-/

namespace Sys2Proof.Machine

theorem readDec_eq_none (s : State) : s.readDec = none ↔ s.dec.valid = false := by
  cases h : s.dec.valid <;> simp [State.readDec, h]

theorem readDec_of_valid {s : State} (h : s.dec.valid = true) :
    s.readDec = some
      { tag := s.dec.tag, len := s.dec.len, err := s.dec.err, csumRx := s.dec.csumRx, csumCalc := s.dec.csumCalc,
        csumOk := s.dec.csumOk, short := s.readShort } := by
  simp [State.readDec, h]

theorem readShort_eq_none (s : State) : s.readShort = none ↔ s.dec.shortSeen = false := by
  cases h : s.dec.shortSeen <;> simp [State.readShort, h]

theorem readSnap_eq_none (s : State) : s.readSnap = none ↔ s.snap.valid = false := by
  cases h : s.snap.valid <;> simp [State.readSnap, h]

theorem readSnap_of_valid {s : State} (h : s.snap.valid = true) : s.readSnap = some s.snap := by
  simp [State.readSnap, h]

/-- The readings of DEC depend on DEC alone. -/
theorem readDec_congr {s t : State} (h : t.dec = s.dec) : t.readDec = s.readDec := by
  simp only [State.readDec, State.readShort, h]

theorem readShort_congr {s t : State} (h : t.dec = s.dec) : t.readShort = s.readShort := by
  simp only [State.readShort, h]

/-- The reading of SNAP depends on SNAP alone. -/
theorem readSnap_congr {s t : State} (h : t.snap = s.snap) : t.readSnap = s.readSnap := by
  simp only [State.readSnap, h]

end Sys2Proof.Machine
end

