-- ==== Sys2Proof/Laws/Run.lean ====
section
/-!
SUPPORT. A run of the machine, one step at a time.
-/

namespace Sys2Proof.Machine

theorem run_zero (s : State) : core.run 0 s = .next s := rfl

/-- The machine never stops, so a run of n + 1 steps is a step and a run of n. -/
theorem run_succ (n : Nat) (s : State) :
    core.run (n + 1) s = core.run n (nextState (decodeCycle s.nextPorts) s.takeCycle) := by
  have h : core.step s = .next (nextState (decodeCycle s.nextPorts) s.takeCycle) := step_eq s
  simp only [Host.Core.run, h]

end Sys2Proof.Machine
end

