-- ==== Sys2Proof/Machine/Consumer.lean ====
section
/-!
DEFINITION. The consumer-side scale table of 30_encoding.md R80: how a consumer of the block's raw outputs finds the source's
engineering units. It is outside the block (00_scope.md R5) and no rule of the block depends on it; the two OPEN parameters
HX_TEMP_DIV and HX_TEMP_SIGNED are arguments.
-/

namespace Sys2Proof.Machine

/-- SNAP.VIN_RAW in volts, raw / 10. -/
def inputVolts (s : SNAP) : Rat := (s.vinRaw.toNat : Rat) / 10

/-- SNAP.FAN_V_RAW in volts, raw / 1. -/
def fanVolts (s : SNAP) : Rat := (s.fanVRaw.toNat : Rat)

/-- SNAP.PUMP_RAW in hertz, raw / 10. -/
def pumpHertz (s : SNAP) : Rat := (s.pumpRaw.toNat : Rat) / 10

/-- The number HX_TEMP_DIV stands for. -/
def hxDivisor : HxDivisor → Rat
  | .ten => 10
  | .hundred => 100

/-- SNAP.HX_TEMP_RAW as an integer, two's complement iff HX_TEMP_SIGNED. -/
def hxReading (c : ConsumerParams) (s : SNAP) : Int :=
  if c.hxTempSigned then s.hxTempRaw.toInt else (s.hxTempRaw.toNat : Int)

/-- SNAP.HX_TEMP_RAW in degrees, raw / HX_TEMP_DIV. -/
def hxDegrees (c : ConsumerParams) (s : SNAP) : Rat := (hxReading c s : Rat) / hxDivisor c.hxTempDiv

/-- SNAP.STATE_DUR in seconds, unscaled. -/
def stateSeconds (s : SNAP) : Nat := s.stateDur.toNat

/-- SNAP.FAN_RPM in revolutions per minute, unscaled. -/
def fanRevolutions (s : SNAP) : Nat := s.fanRpm.toNat

/-- SNAP.GP_TEMP in degrees Celsius, unscaled. DESIGN CHOICE (notes/assumptions/14.md): it is read as unsigned, whatever HX_TEMP_SIGNED
is; 93_implementation_defined.md U14 leaves the signedness of the temperature fields open. -/
def glowPlugDegrees (s : SNAP) : Nat := s.gpTemp.toNat

end Sys2Proof.Machine
end

