-- ==== Sys2Proof/Tests/Slice0.lean ====
section
/-!
SUPPORT. The model's own tests. The expected values come from spec/95_test_vectors.md (named V…, W… and P… as there) and
from the encodings of 30_encoding.md. The `witness_` theorems show states and operands that meet the hypotheses of the
statements of Certificates/Slice0/Obligations.lean.
-/

namespace Sys2Proof.Tests

open Sys2Proof Sys2Proof.Machine

/-- A value read of the state after one instruction. -/
def after {α : Type} (i : Instr) (s : State) (f : State → α) : Option α := (runAll [i] s).map f

/-- The frame of Scenario A (W7). -/
def scenarioA : List Byte :=
  [0xAA, 0x66, 0x06, 0x0B, 0x00, 0x00, 0x00, 0x00, 0x05, 0x06, 0x00, 0x00, 0x00, 0x00, 0x00, 0x1C]

/-- Scenario A with a checksum byte of 0 (V4.7). -/
def badA : List Byte := scenarioA.take 15 ++ [0x00]

/-- The frame of Scenario B (W8). -/
def scenarioB : List Byte := [0x00, 0x00, 0x00, 0x33, 0x00, 0x02] ++ List.replicate 49 0x00 ++ [0x35]

/-- The telemetry frame of program P2. -/
def telemetry : List Byte :=
  [0xAA, 0x00, 0x00, 0x33, 0x01, 0x03, 0x05, 0x00, 0x00, 0x00, 0x00, 0x7C, 0x00, 0x11, 0x00, 0x0A]
    ++ [0x01, 0x2C, 0x00, 0x00, 0x00, 0x3C, 0x00, 0x1E, 0x0C, 0x05, 0x14, 0x00, 0x0F, 0xA0]
    ++ List.replicate 22 0x00 ++ [0x12, 0x34, 0x00, 0x74]

/-- The state whose buffer holds F, the last byte received at `last`. -/
def held (F : List Byte) (last : Nat) : State :=
  let s := State.reset.loadFrame F
  { s with fb := { s.fb with lastTs := last } }

/-- A block of another build. -/
def built (b : Build) (s : State) : State := { s with build := b }

/-- The build of program P6. -/
def verifying : Build := { Build.standard with verifyCsum := true }

/-- The operands `06, 06, 07`. -/
def start : EncArgs := { cmd := 0x06, state := 0x06, power := 0x07 }

/-! ### WellFormed refuses an ill-formed term for each of its checks -/

theorem test_wf_rx_stamp_too_wide : Instr.wellFormed Build.standard (.rxByte 0x00 (2 ^ 32) none) = false := by decide
theorem test_wf_rx_stamp_fits : Instr.wellFormed Build.standard (.rxByte 0x00 (2 ^ 32 - 1) none) = true := by decide
theorem test_wf_poll_stamp_too_wide : Instr.wellFormed Build.standard (.poll (2 ^ 32) none none) = false := by decide

/-- The Long frame of P2 as an instruction. -/
def telemetryWire : LongWire := LongWire.ofBytes telemetry

theorem test_wf_long : Instr.wellFormed Build.standard (.longFrame telemetryWire) = true := by decide
theorem test_wf_gap7_short :
    Instr.wellFormed Build.standard (.longFrame { telemetryWire with gap7 := [0x00, 0x00, 0x00] }) = false := by decide
theorem test_wf_gap30_long :
    Instr.wellFormed Build.standard (.longFrame { telemetryWire with gap30 := List.replicate 23 0x00 }) = false := by
  decide
theorem test_wf_unknown_of_short_shape : Instr.wellFormed Build.standard (.unknownFrame badA) = false := by decide
theorem test_wf_unknown_of_long_shape : Instr.wellFormed Build.standard (.unknownFrame scenarioB) = false := by decide
theorem test_wf_unknown : Instr.wellFormed Build.standard (.unknownFrame (scenarioA ++ [0x00])) = true := by decide

/-! ### Words written out from the encodings

The strobe vector is {rst, enc_req, poll_req, rx_valid} (R64, R86); the wire bytes are those of R73 and R74. -/

/-- 0000. -/
theorem test_decode_nop : decodeCycle (Ports.ofVector 0b0000) = .nop := by decide

/-- 0001 with rx_byte = 0x5A, now = 100 (R84: `RX @100 0x5A`). -/
theorem test_decode_rx :
    decodeCycle
      { rst := false, encReq := false, pollReq := false, rxValid := true, rxByte := 0x5A, now := 100,
        encCmd := 0x11, encState := 0x22, encPower := 0x33 } = .rxByte 0x5A 100 none := by decide

/-- 0010 with now = 41 (`POLL @41`). -/
theorem test_decode_poll :
    decodeCycle
      { rst := false, encReq := false, pollReq := true, rxValid := false, rxByte := 0x5A, now := 41,
        encCmd := 0x11, encState := 0x22, encPower := 0x33 } = .poll 41 none none := by decide

/-- 0100 with enc_cmd = 0x02, enc_state = 0x08, enc_power = 0x07 (`ENC 0x02, 0x08, 7`). -/
theorem test_decode_enc :
    decodeCycle
      { rst := false, encReq := true, pollReq := false, rxValid := false, rxByte := 0x5A, now := 41,
        encCmd := 0x02, encState := 0x08, encPower := 0x07 } =
      .encodeShort { cmd := 0x02, state := 0x08, power := 0x07 } := by decide

/-- 1000. -/
theorem test_decode_reset : decodeCycle (Ports.ofVector 0b1000) = .reset := by decide

/-- 1111: reset overrides op (R68). -/
theorem test_decode_reset_overrides : decodeCycle (Ports.ofVector 0b1111) = .reset := by decide

/-- 0111: the three operations of one cycle (R66). -/
theorem test_decode_all_three :
    decodeCycle
      { rst := false, encReq := true, pollReq := true, rxValid := true, rxByte := 0xAA, now := 541,
        encCmd := 0x06, encState := 0x06, encPower := 0x07 } = .poll 541 (some 0xAA) (some start) := by decide

/-- The bytes of Scenario A, each in its field (R73). -/
theorem test_decode_short :
    decodeWire scenarioA = .shortFrame
      { sync := 0xAA, device := 0x66, disc := 0x06, pad4 := 0x00, pad5 := 0x00,
        pad6 := 0x00, pad7 := 0x00, power := 0x05, stateCode := 0x06, pad10 := 0x00, pad11 := 0x00, pad12 := 0x00,
        pad13 := 0x00, pad14 := 0x00, csum := 0x1C } := by decide

/-- A Long frame whose byte at offset i is i but for the length field, each in its field (R74). -/
theorem test_decode_long :
    decodeWire ([0, 1, 2, 0x33, 4, 5, 6, 7, 8, 9, 10, 11, 12, 13, 14, 15, 16, 17, 18, 19, 20, 21, 22, 23, 24, 25, 26, 27]
      ++ [28, 29, 30, 31, 32, 33, 34, 35, 36, 37, 38, 39, 40, 41, 42, 43, 44, 45, 46, 47, 48, 49, 50, 51, 52, 53, 54, 55])
      = .longFrame
        { sync := 0, device := 1, disc := 2, heaterEn := 4, opState := 5, power := 6, gap7 := [7, 8, 9, 10],
          vin := 11, gap12 := 12, gpCurrent := 13, cooling := 14, fanV := 15, hxTemp := 0x1011, gap18 := 18, gap19 := 19,
          stateDur := 0x1415, gap22 := 22, pump := 23, gpVoltage := 24, gpCurrent2 := 25, gpTemp := 26, rsvd27 := 27,
          fanRpm := 0x1C1D,
          gap30 := [30, 31, 32, 33, 34, 35, 36, 37, 38, 39, 40, 41, 42, 43, 44, 45, 46, 47, 48, 49, 50, 51],
          rsvd52 := 0x3435, gap54 := 54, csum := 55 } := by decide

/-- Scenario E (W11): 20 bytes with F[3] = 0x0B. -/
theorem test_decode_unknown :
    decodeWire ([0xAA, 0x66, 0x06, 0x0B] ++ List.replicate 16 0x00)
      = .unknownFrame ([0xAA, 0x66, 0x06, 0x0B] ++ List.replicate 16 0x00) := by decide

/-- The encoder writes the strobes and ports of `RX+POLL @541 0xAA` with `ENC 06, 06, 07`: op = 0b111. -/
theorem test_encode_cycle :
    encode (.poll 541 (some 0xAA) (some start)) =
      .cycle
        { rst := false, encReq := true, pollReq := true, rxValid := true, rxByte := 0xAA, now := 541,
          encCmd := 0x06, encState := 0x06, encPower := 0x07 } := by decide

theorem test_encode_long : encode (.longFrame telemetryWire) = .frame telemetry := by decide

/-! ### CHECKSUM: V1 -/

theorem test_v1_3 : checksum [0xAA, 0x66, 0x06] = 0x00 := by decide
theorem test_v1_4 : checksum [0xAA, 0x66, 0x06, 0x0B] = 0x06 := by decide
theorem test_v1_5 : checksum [0x12, 0x34, 0x56, 0x78, 0x9A] = 0xCE := by decide
theorem test_v1_6 : checksum [0xAA, 0x66, 0x80, 0x80, 0x80, 0x00] = 0x80 := by decide
theorem test_v1_7 : checksum scenarioA = 0x1C := by decide
theorem test_v1_9 : checksum (List.replicate 16 0xFF) = 0xF3 := by decide
theorem test_v1_10 : checksum (List.replicate 56 0xFF) = 0xCB := by decide
theorem test_v1_11 : checksum (List.replicate 60 0x01) = 0x39 := by decide

/-! ### The read primitives: W6 -/

theorem test_w6 :
    (rd8 [0xAA, 0x66, 0x06] 2, rd8 [0xAA, 0x66, 0x06] 3, rd16be [0xAA, 0x66, 0x06] 1, rd16be [0xAA, 0x66, 0x06] 2)
      = (0x06, 0x00, 0x6606, 0x0000) := by decide

/-! ### NOP -/

/-- R65: the pulses return to 0 and the frame in assembly stays. -/
theorem test_nop :
    after .nop { held scenarioA 30 with ev := { frameValid := true, warn := true, txValid := true } }
      (fun t => (t.ev, t.fb.len, t.acc)) = some (EV.quiet, 16, 0x38) := by decide

/-! ### RX_BYTE: V2 -/

/-- V2.2, the third byte. -/
theorem test_v2_2 :
    after (.rxByte 0x06 104 none) (held [0xAA, 0x66] 102) (fun t => (t.fb, t.acc))
      = some ({ len := 3, buf := [(0, 0xAA), (1, 0x66), (2, 0x06)], lastTs := 104, lastByte := 0x06, nbytes := 3 },
          0x06) := by decide

/-- V2.3: a byte at offset 56 has no cell; it is counted and summed. -/
theorem test_v2_3 :
    after (.rxByte 0x01 7 none) (held (List.replicate 56 0x01) 3)
      (fun t => (t.fb.len, t.fb.buf.read 56, t.acc, t.fb.lastByte, t.fb.lastTs)) = some (57, 0x00, 0x37, 0x01, 7) := by
  decide

/-! ### POLL: V3 -/

/-- V3.2: elapsed = IBT. -/
theorem test_v3_2 :
    after (.poll 40 none none) (held scenarioA 30) (fun t => (t.fb.len, t.dec.valid, t.ev.frameValid))
      = some (16, false, false) := by decide

/-- V3.3 and V4.6, R104: elapsed = IBT + 1. -/
theorem test_v3_3 :
    after (.poll 41 none none) (held scenarioA 30) (fun t => (t.fb.len, t.acc, t.dec, t.snap, t.ev))
      = some (0, 0x00,
          { valid := true, tag := .short, len := 16, err := .noError, csumRx := 0x1C, csumCalc := 0x1C, csumOk := true,
            sPowerPct := 50, sCmd := .setOn, shortSeen := true },
          SNAP.reset, { frameValid := true, warn := false, txValid := false }) := by decide

/-- V3.4, V3.5: the clock wraps. -/
theorem test_v3_4 : closes Build.standard 16 0x00000005 0xFFFFFFFA = true := by decide
theorem test_v3_5 : closes Build.standard 16 0x00000004 0xFFFFFFFA = false := by decide

/-- V3.6: the clock stepped back; V3.7: a gap of 2^32 and 5. -/
theorem test_v3_6 : elapsed Build.standard 29 30 = 0xFFFFFFFF := by decide
theorem test_v3_7 : closes Build.standard 16 (30 + 2 ^ 32 + 5) 30 = false := by decide

/-- V3.9, V3.10: IBT = 0. -/
theorem test_v3_9 : closes { Build.standard with ibt := 0 } 16 31 30 = true := by decide
theorem test_v3_10 : closes { Build.standard with ibt := 0 } 16 30 30 = false := by decide

/-! ### DECODE: V4 -/

/-- V4.1: DECODE alone on the empty frame. -/
theorem test_v4_1 : decodeView Build.standard (FrameView.ofBytes []) = .unknown 0 .emptyFrame := by decide

/-- V4.4: three bytes. -/
theorem test_v4_4 :
    after (.poll 41 none none) (held [0xAA, 0x66, 0x06] 30)
      (fun t => ((t.dec.tag, t.dec.len, t.dec.err), (t.dec.csumRx, t.dec.csumCalc, t.dec.csumOk), t.ev.warn))
      = some ((.unknown, 3, .frameTooShortToClassify), (0x06, 0x00, false), true) := by decide

/-- V4.7: a wrong checksum byte is recorded, not enforced. -/
theorem test_v4_7 :
    after (.shortFrame { ShortWire.ofBytes scenarioA with csum := 0x00 }) State.reset
      (fun t => (t.dec.tag, t.dec.csumRx, t.dec.csumCalc, t.dec.csumOk, t.dec.sPowerPct, t.ev.warn))
      = some (.short, 0x00, 0x1C, false, 50, false) := by decide

/-- V4.8, V4.9: 15 and 17 bytes with F[3] = 0x0B. -/
theorem test_v4_8 :
    after (.unknownFrame (scenarioA.take 15)) State.reset
      (fun t => (t.dec.len, t.dec.err, t.dec.csumRx, t.dec.csumCalc)) = some (15, .unrecognizedFrameShape, 0x00, 0x1C) := by
  decide
theorem test_v4_9 :
    after (.unknownFrame (scenarioA ++ [0x00])) State.reset
      (fun t => (t.dec.len, t.dec.err, t.dec.csumRx, t.dec.csumCalc)) = some (17, .unrecognizedFrameShape, 0x00, 0x38) := by
  decide

/-- V4.11, V4.12: the right length field with the other shape's length. -/
theorem test_v4_11 : classify 16 0x33 = .unknown := by decide
theorem test_v4_12 : classify 56 0x0B = .unknown := by decide

set_option maxRecDepth 4000 in
/-- V4.13: Scenario B. -/
theorem test_v4_13 :
    after (.longFrame (LongWire.ofBytes scenarioB)) State.reset
      (fun t => (t.dec.tag, t.dec.csumCalc, t.dec.csumOk, stateCode t.snap.opState, t.snap.valid))
      = some (.long, 0x35, true, 2, true) := by decide

/-- P2, after POLL @121: every field of the telemetry frame. -/
theorem test_p2_long :
    after (.poll 121 none none) (held telemetry 110) (fun t => (t.snap, t.dec.csumCalc, t.dec.sPowerPct))
      = some ({ valid := true, opState := .stableCombustion, heaterEn := 0x01, powerPct := 50, vinRaw := 124,
                gpCurrent := 17, cooling := 0, fanVRaw := 10, hxTempRaw := 300, stateDur := 60, pumpRaw := 30,
                gpVoltage := 12, gpCurrent2 := 5, gpTemp := 20, rsvd27 := 0, fanRpm := 4000, rsvd52 := 4660,
                csumRx := 0x74 }, 0x74, 0) := by decide

/-- P2 and R177: after only a Long frame, DEC is present and its Short fields are absent. -/
theorem test_r177_no_short :
    after (.poll 121 none none) (held telemetry 110) (fun t => (t.readDec.map (fun d => (d.tag, d.short)), t.readShort))
      = some (some (.long, none), none) := by decide

/-- V4.15: the header is not checked. -/
theorem test_v4_15 :
    decodeView Build.standard (FrameView.ofBytes
      [0x00, 0x00, 0x00, 0x0B, 0x00, 0x00, 0x00, 0x00, 0x03, 0x08, 0x00, 0x00, 0x00, 0x00, 0x00, 0x16])
      = .short { powerPct := 30, cmd := .running } := by decide

/-- V4.17: no range check of the power. -/
theorem test_v4_17 : percentOf 0xFF = 2550 := by decide

/-- V4.18: a frame longer than the buffer. -/
theorem test_v4_18 :
    after (.poll 41 none none) (held (List.replicate 60 0x01) 30)
      (fun t => (t.dec.len, t.dec.err, t.dec.csumRx, t.dec.csumCalc)) = some (60, .unrecognizedFrameShape, 0x01, 0x39) := by
  decide

/-- V4.19 and P6: VERIFY_CSUM = 1 and a wrong checksum byte. -/
theorem test_v4_19 :
    after (.poll 41 none none) (built verifying (held badA 30))
      (fun t => (t.dec.tag, t.dec.err, t.dec.csumRx, t.dec.csumCalc, t.dec.sPowerPct, t.ev.warn))
      = some (.unknown, .checksumMismatch, 0x00, 0x1C, 0, true) := by decide

/-- V4.20: VERIFY_CSUM = 1 and the right one. -/
theorem test_v4_20 : decodeView verifying (FrameView.ofBytes scenarioA) = .short { powerPct := 50, cmd := .setOn } := by
  decide

/-- V4.22, V4.23: the code tables. -/
theorem test_v4_22 :
    [0x00, 0x01, 0x02, 0x03, 0x04, 0x05, 0xFF].map (fun b => stateCode (stateMap b)) = [0, 1, 2, 3, 4, 7, 7] := by decide
theorem test_v4_23 :
    [0x02, 0x05, 0x06, 0x08, 0x00, 0xFF].map (fun b => cmdCode (cmdMap b)) = [0, 1, 2, 3, 7, 7] := by decide

/-! ### ENCODE_SHORT: V5 -/

/-- V5.1, with the pulse. -/
theorem test_v5_1 :
    after (.encodeShort start) State.reset (fun t => (t.txFrame.toList, t.ev.txValid, t.ev.frameValid))
      = some ([0xAA, 0x66, 0x06, 0x0B, 0x00, 0x00, 0x00, 0x00, 0x07, 0x06, 0x00, 0x00, 0x00, 0x00, 0x00, 0x1E],
          true, false) := by decide

/-- V5.4: `ENC 02, 08, 07`, state and power not swapped. -/
theorem test_v5_4 :
    (encodedFrame { cmd := 0x02, state := 0x08, power := 0x07 }).toList
      = [0xAA, 0x66, 0x02, 0x0B, 0x00, 0x00, 0x00, 0x00, 0x07, 0x08, 0x00, 0x00, 0x00, 0x00, 0x00, 0x1C] := by decide

/-- V5.8: the checksum wraps. -/
theorem test_v5_8 : encodedCsum { cmd := 0xFF, state := 0xFF, power := 0xFF } = 0x08 := by decide

/-- V5.1: tx_frame[7:0] = 0xAA and tx_frame[127:120] = 0x1E. -/
theorem test_v5_port :
    ((packTx (encodedFrame start)).extractLsb' 0 8, (packTx (encodedFrame start)).extractLsb' 120 8) = (0xAA, 0x1E) := by
  decide

/-! ### RESET and cycles of several operations: V6 -/

/-- V6.1. -/
theorem test_v6_1 :
    after .reset { held (scenarioA.take 9) 30 with dec := { DEC.reset with valid := true }, acc := 0x55 }
      (fun t => (t.fb.len, t.fb.lastTs, t.acc, t.dec, t.snap, t.ev))
      = some (0, 0, 0x00, DEC.reset, SNAP.reset, EV.quiet) := by decide

/-- V6.2: the byte starts a new frame. -/
theorem test_v6_2 :
    after (.poll 41 (some 0xAA) none) (held scenarioA 30)
      (fun t => (t.fb.len, t.fb.buf.read 0, t.acc, t.fb.lastTs, t.dec.sCmd)) = some (1, 0xAA, 0x00, 41, .setOn) := by
  decide

/-- V6.3, its last POLL: a byte one cycle before the POLL joins the frame. -/
theorem test_v6_3 :
    after (.poll 52 none none) (held (scenarioA ++ [0xAA]) 41) (fun t => (t.dec.len, t.dec.err))
      = some (17, .unrecognizedFrameShape) := by decide

/-- V6.4: both pulses in one cycle. -/
theorem test_v6_4 :
    after (.poll 41 none (some start)) (held scenarioA 30) (fun t => (t.ev, rd8 t.txFrame.toList 15, t.dec.sPowerPct))
      = some ({ frameValid := true, warn := false, txValid := true }, 0x1E, 50) := by decide

/-! ### The step and the words of the opcode table -/

/-- A SHORT_FRAME word runs: its frame is in the buffer and the step's POLL decodes it. -/
theorem test_step_short_word :
    (match step (State.reset.withFetchWord 24 0x0B) with
      | .next t => (t.dec.tag, t.dec.csumCalc, t.fb.len) | .fault _ => (.unknown, 0, 1) | .refused _ => (.unknown, 0, 1))
      = (.short, 0x0B, 0) := by decide

/-- A LONG_FRAME word runs. -/
theorem test_step_long_word :
    (match step (State.reset.withFetchWord 8 0x33) with
      | .next t => (t.dec.tag, t.snap.valid) | .fault _ => (.unknown, false) | .refused _ => (.unknown, false))
      = (.long, true) := by decide

/-- A POLL word runs, as POLL at time 0 of the state after reset. -/
theorem test_step_poll_word : step (State.reset.withFetchWord 8 0b0010) = exec (.poll 0 none none) State.reset := rfl

/-! ### The host: W12 and 30_encoding.md R80 -/

theorem test_w12_start : directive true .off 70 = some start := by decide
theorem test_w12_hold : directive true .stableCombustion 70 = some { cmd := 0x02, state := 0x08, power := 7 } := by decide
theorem test_w12_shutdown : directive false .ignited 70 = some { cmd := 0x06, state := 0x05, power := 10 } := by decide
theorem test_w12_keep : directive false .stoppingCooling 70 = some { cmd := 0x02, state := 0x02, power := 10 } := by decide
theorem test_w12_none : directive false .off 70 = none := by decide

/-- R143: the send gate, across a wrap of the clock. -/
theorem test_gate :
    ((Controller.mk true 70 .off 0xFFFFFFFF).gateOpen Build.standard 999,
     (Controller.mk true 70 .off 0xFFFFFFFF).gateOpen Build.standard 998) = (true, false) := by decide

/-- R80: HX_TEMP_RAW = 0xFFFF read as two's complement. -/
theorem test_hx_signed : hxReading { hxTempDiv := .ten, hxTempSigned := true } { SNAP.reset with hxTempRaw := 0xFFFF } = -1 := by
  decide

/-! ### Witnesses: states and operands that meet the hypotheses of the statements -/

/-- A block that verifies and holds Scenario A with a wrong checksum byte. -/
def heldBad : State := built verifying (held badA 30)

/-- A full counter of the build in which FB.LEN saturates at the buffer's depth: LEN_W = 6, 2^6 - 1 = 63. -/
def narrow : Build := { Build.standard with lenW := 6 }

/-- ResetOverridesStrobes: rst with every strobe. -/
theorem witness_reset_strobes : (Ports.ofVector 0b1111).rst = true := by decide

/-- RxByteAppends: the last cell (offset 55), the first offset without one (56), the offsets 1 and 2 between which summing
begins, and a saturated counter. -/
theorem witness_rx_last_cell :
    let s := held (List.replicate 55 0x01) 0
    s.fb.len < s.build.bufDepth ∧ s.fb.len + 1 = s.build.bufDepth := by decide
theorem witness_rx_no_cell :
    let s := held (List.replicate 56 0x01) 0
    ¬(56 = s.fb.len ∧ s.fb.len < s.build.bufDepth) := by decide
theorem witness_rx_sum_begins : ¬ 2 ≤ (held [0xAA] 0).fb.len ∧ 2 ≤ (held [0xAA, 0x66] 0).fb.len := by decide
theorem witness_rx_saturated :
    let s := built narrow { held [] 0 with fb := { (held [] 0).fb with len := 63, nbytes := 63 } }
    ¬ s.fb.len < 2 ^ s.build.lenW - 1 ∧ s.build.Legal := by decide

/-- PollEmitsAfterSilence: a Short frame, one time unit over the threshold. -/
theorem witness_poll_emits :
    let s := held scenarioA 30
    s.fb.len ≠ 0 ∧ s.build.ibt < elapsed s.build 41 s.fb.lastTs ∧ (decodeView s.build s.heldView).tag = .short := by decide
theorem witness_poll_emits_short_fields :
    decodeView (held scenarioA 30).build (held scenarioA 30).heldView = .short { powerPct := 50, cmd := .setOn } := by decide

/-- A Long frame. -/
theorem witness_poll_emits_long :
    let s := held telemetry 110
    s.fb.len ≠ 0 ∧ s.build.ibt < elapsed s.build 121 s.fb.lastTs ∧
      decodeView s.build s.heldView = .long (longFields telemetry) := by decide

/-- An Unknown frame of three bytes and one of four, between which the checksum and its flag change form. -/
theorem witness_poll_emits_unknown :
    let s := held [0xAA, 0x66, 0x06] 30
    s.fb.len ≠ 0 ∧ s.build.ibt < elapsed s.build 41 s.fb.lastTs ∧ s.fb.len < 4 ∧
      (decodeView s.build s.heldView).tag = .unknown := by decide
theorem witness_poll_emits_four :
    let s := held [0xAA, 0x66, 0x06, 0x06] 30
    s.fb.len ≠ 0 ∧ s.build.ibt < elapsed s.build 41 s.fb.lastTs ∧ 4 ≤ s.fb.len ∧
      s.acc - s.fb.lastByte = s.fb.lastByte := by decide

/-- PollOtherwiseDoesNothing: an empty buffer; a silence of exactly IBT. -/
theorem witness_poll_empty : State.reset.fb.len = 0 := rfl
theorem witness_poll_at_threshold :
    let s := held scenarioA 30
    s.fb.len ≠ 0 ∧ elapsed s.build 40 s.fb.lastTs = s.build.ibt := by decide

/-- PollThenByteInOneCycle: a POLL that closes the buffer; one that does not and whose byte takes the last cell. -/
theorem witness_poll_then_byte :
    let s := held scenarioA 30
    s.build.Legal ∧ closes s.build s.fb.len 41 s.fb.lastTs = true := by decide
theorem witness_poll_then_byte_joins :
    let s := held (List.replicate 55 0x01) 30
    closes s.build s.fb.len 40 s.fb.lastTs = false ∧ s.fb.len + 1 = s.build.bufDepth := by decide

/-- ShortFrameDecodes: VERIFY_CSUM = 0 with a wrong checksum byte; VERIFY_CSUM = 1 with the right one. -/
theorem witness_short_not_verified :
    State.reset.build.verifyCsum = false ∧
      ({ ShortWire.ofBytes scenarioA with csum := 0x00 } : ShortWire).csum
        ≠ checksum ({ ShortWire.ofBytes scenarioA with csum := 0x00 } : ShortWire).bytes := by decide
theorem witness_short_verified :
    (built verifying State.reset).build.verifyCsum = true ∧
      (ShortWire.ofBytes scenarioA).csum = checksum (ShortWire.ofBytes scenarioA).bytes := by decide

set_option maxRecDepth 4000 in
/-- LongFrameDecodes: the same. -/
theorem witness_long_not_verified :
    let w := { telemetryWire with csum := 0x00 }
    w.gap7.length = 4 ∧ w.gap30.length = 22 ∧ State.reset.build.verifyCsum = false ∧ w.csum ≠ checksum w.bytes := by decide
set_option maxRecDepth 4000 in
theorem witness_long_verified :
    telemetryWire.gap7.length = 4 ∧ telemetryWire.gap30.length = 22 ∧ verifying.verifyCsum = true ∧
      telemetryWire.csum = checksum telemetryWire.bytes := by decide

/-- UnknownFrameDecodes: lengths 1, 3 and 4, and a long one. -/
theorem witness_unknown_one : [0xAA] ≠ ([] : List Byte) ∧ knownShape [0xAA] = false := by decide
theorem witness_unknown_three :
    [0xAA, 0x66, 0x06] ≠ ([] : List Byte) ∧ knownShape [0xAA, 0x66, 0x06] = false ∧ State.reset.build.Legal ∧ [0xAA, 0x66, 0x06].length ≤ 3 := by decide
theorem witness_unknown_four :
    [0xAA, 0x66, 0x06, 0x0B] ≠ ([] : List Byte) ∧ knownShape [0xAA, 0x66, 0x06, 0x0B] = false ∧ ¬[0xAA, 0x66, 0x06, 0x0B].length ≤ 3 := by decide
theorem witness_unknown_sixty :
    List.replicate 60 (0x01 : Byte) ≠ [] ∧ knownShape (List.replicate 60 0x01) = false := by decide

/-- WrongChecksumIsMismatch: a Short frame in a block that verifies and in one that does not; a Long frame. -/
theorem witness_mismatch_verified :
    heldBad.build.Legal ∧ heldBad.build.verifyCsum = true ∧ knownShape badA = true ∧ badA.getLastD 0x00 ≠ checksum badA := by
  decide
theorem witness_mismatch_short :
    State.reset.build.Legal ∧ State.reset.build.verifyCsum = false ∧ knownShape badA = true ∧
      badA.getLastD 0x00 ≠ checksum badA ∧ badA.length = 16 := by decide
theorem witness_mismatch_long :
    let F := scenarioB.take 55 ++ [0x00]
    State.reset.build.Legal ∧ State.reset.build.verifyCsum = false ∧ knownShape F = true ∧
      F.getLastD 0x00 ≠ checksum F ∧ F.length = 56 := by decide

/-- HeaderBytesNotChecked: Scenario A with another header. -/
theorem witness_header :
    let G := [0x00, 0x01, 0x02] ++ scenarioA.drop 3
    Build.standard.verifyCsum = false ∧ scenarioA.length = G.length ∧ scenarioA ≠ G ∧
      ∀ i, 3 ≤ i → rd8 scenarioA i = rd8 G i := by
  refine ⟨rfl, rfl, by decide, fun i h => ?_⟩
  obtain ⟨j, rfl⟩ := Nat.exists_eq_add_of_le' h
  rfl
theorem witness_header_verified :
    verifying.verifyCsum = true ∧ rd8 scenarioA 2 = rd8 ([0x00, 0x01] ++ scenarioA.drop 2) 2 := by decide
theorem witness_header_short : Build.standard.verifyCsum = false ∧ (List.replicate 12 (0x5A : Byte)).length = 12 := by decide

/-- FieldsComeFromTheirFrame: any operation but RESET. -/
theorem witness_not_reset : Instr.poll 41 none none ≠ .reset := by decide

/-- DecAndSnapHold: a POLL at the threshold; a byte with an encode. -/
theorem witness_hold_poll : writesDec (held scenarioA 30) (.poll 40 none none) = false := by decide
theorem witness_hold_rx : writesDec (held scenarioA 30) (.rxByte 0xAA 41 (some start)) = false := by decide

/-- PulsesLastOneCycle: a cycle that carries an ENCODE_SHORT and one that does not. -/
theorem witness_carries : carriesEnc (.poll 41 none (some start)) = some start ∧ carriesEnc .nop = none := by decide

/-- SecondPollFindsNothing, PollThresholdIsStrict: the threshold's two sides, the second across a wrap. -/
theorem witness_closes : closes Build.standard 16 41 30 = true := by decide
theorem witness_threshold_below : 10 < 2 ^ Build.standard.tsW ∧ ¬ Build.standard.ibt < 10 := by decide
theorem witness_threshold_above : 11 < 2 ^ Build.standard.tsW ∧ Build.standard.ibt < 11 := by decide

/-- Holds: the state after reset holds no byte; a loaded block holds its frame, one longer than BUF_DEPTH included. -/
theorem witness_holds_none : State.reset.build.Legal ∧ Holds State.reset [] := ⟨by decide, holds_reset⟩
theorem witness_holds_long :
    let s := State.reset.loadFrame (List.replicate 57 0x01)
    s.build.Legal ∧ Holds s (List.replicate 57 0x01) ∧ s.build.bufDepth < (List.replicate 57 (0x01 : Byte)).length ∧
      s.build.ibt < elapsed s.build 11 s.fb.lastTs :=
  ⟨by decide, holds_loadFrame _ _, by decide, by decide⟩

/-- FrameHeldThroughEveryCycle, PollDecodesHeldFrame: a held frame that a POLL closes. -/
theorem witness_poll_decodes :
    let s := State.reset.loadFrame scenarioA
    s.build.Legal ∧ Holds s scenarioA ∧ closes s.build s.fb.len 11 s.fb.lastTs = true :=
  ⟨by decide, holds_loadFrame _ _, by decide⟩

/-- PollPeriodSeparatesFrames: the last byte at 0, a poll every 9 units from 9 on, silences of 20: the largest period R172 allows, and
the latest first poll. -/
theorem witness_poll_period :
    let s := State.reset.loadFrame scenarioA
    s.build.Legal ∧ Holds s scenarioA ∧ scenarioA ≠ [] ∧ s.fb.lastTs = sampleTs s.build 0 ∧ 0 < 9 ∧
      PollPeriodMeets s.build 9 20 ∧ ¬ PollPeriodMeets s.build 10 20 ∧ s.build.ibt + 9 < 2 ^ s.build.tsW ∧
      0 ≤ 9 ∧ 9 ≤ 0 + 9 :=
  ⟨by decide, holds_loadFrame _ _, by decide, by decide, by decide, by decide, by decide, by decide, by decide, by decide⟩

/-- BurstIsOneFrame: two stand-alone POLLs between the first byte and the second, the second exactly IBT after the first and across
a wrap of the clock, a POLL in the cycle of the second and an encode. -/
theorem witness_unbroken :
    unbroken Build.standard 0xFFFFFFF8
      [.poll 0xFFFFFFFC none none, .nop, .poll 1 none none, .poll 2 (some 0x66) none, .encodeShort start, .rxByte 0x06 4 none] :=
  ⟨by decide, by decide, by decide, by decide, trivial⟩

/-- EncodedFrameDecodesBack: fifteen time-stamps, and a POLL after the silence. -/
theorem witness_round_trip :
    (List.range 15).length = 15 ∧ State.reset.build.ibt < elapsed State.reset.build 41 30 := by decide

/-- ChecksumLaws: a frame of three bytes and one of four. -/
theorem witness_checksum : [0xAA, 0x66, (0x06 : Byte)].length < 4 ∧ 4 ≤ [0xAA, 0x66, 0x06, (0x0B : Byte)].length := by decide

/-- ReadsAreBounded: the last byte, the first offset out of range, and the same for a pair. -/
theorem witness_reads :
    2 < [0xAA, 0x66, (0x06 : Byte)].length ∧ [0xAA, 0x66, (0x06 : Byte)].length ≤ 3 ∧
      1 + 1 < [0xAA, 0x66, (0x06 : Byte)].length ∧ [0xAA, 0x66, (0x06 : Byte)].length ≤ 2 + 1 := by decide

/-- TxPortPacking: the last byte. -/
theorem witness_tx_port : 15 < 16 := by decide

/-- StepRunsDecodedCycle: a well-formed operation with its cycle, and a state with nothing presented. -/
theorem witness_step :
    (Instr.rxByte 0x5A 100 none).wellFormed State.reset.build = true ∧
      encode (.rxByte 0x5A 100 none) = .cycle { Ports.idle with rxValid := true, rxByte := 0x5A, now := 100 } ∧
      State.reset.inputs = [] := by decide

/-- StrobePatternsDefined: op = 0b111, 0b101, 0b100 and 0b000. -/
theorem witness_strobes :
    (Ports.ofVector 0b0111).rst = false ∧ (Ports.ofVector 0b0111).pollReq = true ∧
      (Ports.ofVector 0b0101).pollReq = false ∧ (Ports.ofVector 0b0101).rxValid = true ∧
      (Ports.ofVector 0b0100).rxValid = false ∧ (Ports.ofVector 0b0100).encReq = true ∧
      (Ports.ofVector 0b0000).encReq = false := by decide

/-- ClassIsExact: three bytes. -/
theorem witness_class : [0xAA, 0x66, (0x06 : Byte)].length < 4 := by decide

/-- DecodeOfEncode: a well-formed instruction of every constructor that has a condition. -/
theorem witness_well_formed :
    Instr.wellFormed Build.standard (.rxByte 0x5A (2 ^ 32 - 1) (some start)) = true ∧
      Instr.wellFormed Build.standard (.poll (2 ^ 32 - 1) (some 0x5A) none) = true ∧
      Instr.wellFormed Build.standard (.longFrame telemetryWire) = true ∧
      Instr.wellFormed Build.standard (.unknownFrame []) = true := by decide

/-- InvariantKept, ImpossibleErrorsNeverReported, LengthIsTrueCount: a state of the invariant that is not the state after reset.
It has emitted a ChecksumMismatch and holds the first four bytes of a frame. -/
def midFrame : State :=
  { built verifying (State.reset.loadFrame [0xAA, 0x66, 0x06, 0x0B]) with
    dec := { DEC.reset with valid := true, len := 16, err := .checksumMismatch, csumCalc := 0x1C } }

theorem witness_inv : Inv midFrame where
  buildLegal := by decide
  bufCanonical := by decide
  bufBounded := by decide
  lenGhost := by decide
  tsWidth := by decide
  accSum := by decide
  lastStored := by decide
  decOne := fun d h => by
    cases h
    exact ⟨by decide, by decide, Or.inr (Or.inr ⟨rfl, rfl, rfl, Or.inl rfl⟩)⟩
  shortPercent := fun f h => by cases h
  snapPercent := fun f h => by cases h
  absentTogether := fun h => by cases h
  warnWithFrame := by decide
  frameWithDec := by decide

theorem witness_inv_count : midFrame.fb.nbytes ≤ 2 ^ midFrame.build.lenW - 1 := by decide
theorem witness_inv_mismatch : midFrame.readDec.map (fun d => d.err) = some .checksumMismatch := by decide

/-- LengthIsTrueCount: a state of the invariant whose counter has saturated, one byte ago. -/
def saturated : State :=
  built narrow { State.reset with fb := { FB.reset with len := 63, nbytes := 64 } }

theorem witness_inv_saturated : Inv saturated ∧ 2 ^ saturated.build.lenW - 1 < saturated.fb.nbytes :=
  ⟨{ buildLegal := by decide
     bufCanonical := by decide
     bufBounded := by decide
     lenGhost := by decide
     tsWidth := by decide
     accSum := by decide
     lastStored := by decide
     decOne := fun _ h => by cases h
     shortPercent := fun _ h => by cases h
     snapPercent := fun _ h => by cases h
     absentTogether := fun _ => ⟨rfl, rfl⟩
     warnWithFrame := by decide
     frameWithDec := by decide }, by decide⟩

/-- ReadingsAreAbsentUntilDecoded: a POLL that emits a Short, a Long and an Unknown frame, and one that emits none. -/
theorem witness_readings :
    emitsFrame (held scenarioA 30) (.poll 41 none none) = true ∧ emitsFrame (held telemetry 110) (.poll 121 none none) = true ∧
      emitsFrame (held [0xAA] 30) (.poll 41 none none) = true ∧
      emitsFrame (held scenarioA 30) (.poll 40 none none) = false := by decide

/-- EmptyFrameOfDecodeAlone: an empty buffer, and a DEC that no run of the block reaches. -/
theorem witness_empty_poll :
    State.reset.fb.len = 0 ∧
      after (.poll 41 none none) { State.reset with dec := { DEC.reset with err := .emptyFrame } } (fun t => t.dec.err)
        = some .emptyFrame := by decide

/-- HiddenStateStaysHidden: two states that differ in a stale cell, in both hidden registers and in TX.FRAME. -/
theorem witness_hidden :
    let t := { State.reset with
      fb := { FB.reset with buf := [(7, 0x5A)], lastTs := 9, lastByte := 0x11 }, txFrame := encodedFrame start, freeCtr := 3 }
    SameObservable State.reset t ∧ State.reset ≠ t :=
  ⟨⟨rfl, rfl, rfl, fun _ h => absurd h (Nat.not_lt_zero _), fun h => absurd rfl h, fun h => absurd rfl h, rfl, rfl, rfl,
    rfl, fun h => absurd h (by decide), rfl⟩, by decide⟩

/-- NothingDecodedBeforePoll: a byte, an encode, and a POLL at the threshold. -/
theorem witness_before_poll : emitsNothing [.rxByte 0xAA 1 none, .encodeShort start, .poll 11 none none] State.reset := by
  refine ⟨rfl, fun t h => ?_⟩
  cases h
  refine ⟨rfl, fun t h => ?_⟩
  cases h
  exact ⟨by decide, fun _ _ => trivial⟩

/-- ControllerDirectives: the largest level, with and without a frame to send. -/
theorem witness_directives :
    (100 : Nat) ≤ 100 ∧ directive true .off 100 = some { cmd := 0x06, state := 0x06, power := 10 } ∧
      directive false .off 100 = none := by decide

end Sys2Proof.Tests
end

/-!
PROOFS. The statements of 00_scope.md: the read primitives (R12), the build parameters (R6), and the framer as an image of the
source's unbounded buffer (R10).
-/

/-! ### The read primitives -/

namespace Sys2Proof

/-- A field of two bytes has the byte at the lower offset as its high part (R48). -/
theorem toNat_byte_append (a b : Byte) : (a ++ b : Half).toNat = a.toNat * 256 + b.toNat := by
  rw [BitVec.toNat_append, ← Nat.shiftLeft_add_eq_or_of_lt b.isLt, Nat.shiftLeft_eq]

theorem rd16be_of_lt {F : List Byte} {i : Nat} (h : i + 1 < F.length) :
    rd16be F i = (rd8 F i ++ rd8 F (i + 1) : Half) := if_pos h

theorem rd16be_of_ge {F : List Byte} {i : Nat} (h : F.length ≤ i + 1) : rd16be F i = 0x0000 :=
  if_neg (Nat.not_lt.mpr h)

/-- Settles O33: each read in range by its bytes, each read out of range by its 0. -/
theorem readsAreBounded : Obligations.ReadsAreBounded := by
  intro F i
  refine ⟨fun h => rd8_of_lt h, rd8_of_ge, fun h => ?_, rd16be_of_ge⟩
  rw [rd16be_of_lt h, toNat_byte_append, rd8_of_lt (Nat.lt_of_succ_lt h), rd8_of_lt h]

end Sys2Proof

namespace Sys2Proof.Machine

/-! ### Runs and the build -/

@[simp] theorem nextState_build (i : Instr) (s : State) : (nextState i s).build = s.build := by
  cases i <;> simp [nextState]

/-- A run goes on from the state its first step answers. -/
theorem run_succ_of_step {s u : State} (h : step s = .next u) (n : Nat) : core.run (n + 1) s = core.run n u := by
  have hcore : core.step s = .next u := h
  simp only [Host.Core.run, hcore]

/-- The one induction over runs: what every step keeps holds after a run of any length, and the run is not stopped. -/
theorem run_keeps {P : State → Prop} (hstep : ∀ s, P s → ∃ t, step s = .next t ∧ P t) (n : Nat) (s : State)
    (hs : P s) : ∃ t, core.run n s = .next t ∧ P t := by
  induction n generalizing s with
  | zero => exact ⟨s, rfl, hs⟩
  | succ n ih =>
    obtain ⟨u, hu, hPu⟩ := hstep s hs
    obtain ⟨t, ht, hPt⟩ := ih u hPu
    exact ⟨t, (run_succ_of_step hu n).trans ht, hPt⟩

/-- Settles O20: no instruction writes the build, so no run does. -/
theorem buildNeverChanges : Obligations.BuildNeverChanges := by
  intro n s
  have hstep : ∀ u : State, u.build = s.build → ∃ t, step u = .next t ∧ t.build = s.build :=
    fun u hu => ⟨_, step_eq u, by simp [hu]⟩
  exact run_keeps hstep n s rfl

/-! ### The frame in assembly -/

/-- What a block holds is said by its buffer, its accumulator and its build alone. -/
theorem Holds.congr {s t : State} {F : List Byte} (h : Holds s F) (hfb : t.fb = s.fb) (hacc : t.acc = s.acc)
    (hbuild : t.build = s.build) : Holds t F where
  count := by rw [hfb, hbuild, h.count]
  ghost := by rw [hfb, h.ghost]
  cells := by rw [hfb, hbuild]; exact h.cells
  accum := by rw [hacc, h.accum]
  final := by rw [hfb]; exact h.final

/-- A block whose counters and accumulator are clear holds no byte, whatever its cells are. -/
theorem holds_nil {s : State} (hlen : s.fb.len = 0) (hghost : s.fb.nbytes = 0) (hacc : s.acc = 0x00) : Holds s [] where
  count := by simp [hlen]
  ghost := hghost
  cells := fun _ h _ => absurd h (Nat.not_lt_zero _)
  accum := hacc
  final := fun h => absurd rfl h

theorem holds_emit (v : FrameView) (s : State) : Holds (s.emit v) [] := holds_nil (by simp) (by simp) (by simp)

theorem holds_resetCycle (s : State) : Holds s.resetCycle [] := holds_nil rfl rfl rfl

theorem Holds.beginCycle {s : State} {F : List Byte} (h : Holds s F) : Holds s.beginCycle F := h.congr rfl rfl rfl

theorem Holds.encodeOpt {s : State} {F : List Byte} (h : Holds s F) (enc : Option EncArgs) : Holds (s.encodeOpt enc) F :=
  h.congr (by simp) (by simp) (by simp)

/-- The sum over a frame with one more byte is the accumulator's update at the frame's true length (R91). -/
theorem sumFrom2_snoc (F : List Byte) (b : Byte) : sumFrom2 (F ++ [b]) = accUpdate F.length (sumFrom2 F) b := by
  unfold accUpdate sumFrom2
  split
  · next h => rw [List.drop_append_of_le_length h, List.foldl_append]; rfl
  · next h =>
    rw [List.drop_eq_nil_of_le (by omega : F.length ≤ 2), List.drop_eq_nil_of_le (by simp; omega)]

/-- In a legal build the length counter saturates above every threshold the block compares it with: below a bound of at most
BUF_DEPTH it is the true count (R22). -/
theorem Holds.len_lt_iff {s : State} {F : List Byte} (h : Holds s F) (hb : s.build.Legal) {n : Nat}
    (hn : n ≤ s.build.bufDepth) : s.fb.len < n ↔ F.length < n := by
  obtain ⟨-, -, -, hdepth⟩ := hb
  have hcount := h.count
  omega

/-- Below BUF_DEPTH the next byte's cell is at the frame's true length. -/
theorem Holds.len_eq {s : State} {F : List Byte} (h : Holds s F) (hb : s.build.Legal)
    (hlt : s.fb.len < s.build.bufDepth) : s.fb.len = F.length := by
  obtain ⟨-, -, -, hdepth⟩ := hb
  have hcount := h.count
  omega

/-- The cells after a byte: the new one at the end of the frame if it has a cell, the others as they were (R97). -/
theorem Holds.receive_cells {s : State} {F : List Byte} (h : Holds s F) (hb : s.build.Legal) (b : Byte) (now : Nat)
    (i : Nat) (hi : i < (F ++ [b]).length) (hd : i < s.build.bufDepth) :
    (receiveFb s.build b now s.fb).buf.read i = rd8 (F ++ [b]) i := by
  have hlast : i < F.length ∨ i = F.length := by
    rw [List.length_append, List.length_singleton] at hi
    omega
  rw [receiveFb_buf]
  rcases hlast with hold | rfl
  · rw [rd8_append_left hold, ← h.cells i hold hd]
    split
    · next hlt => exact read_write_ne _ _ _ _ (by rw [h.len_eq hb hlt]; omega)
    · rfl
  · have hlt : s.fb.len < s.build.bufDepth := (h.len_lt_iff hb le_rfl).mpr hd
    rw [if_pos hlt, h.len_eq hb hlt, read_write_same, rd8_append_right le_rfl, Nat.sub_self, rd8_cons_zero]

/-- RX_BYTE appends its byte to the frame held, however long that is. -/
theorem Holds.receive {s : State} {F : List Byte} (h : Holds s F) (hb : s.build.Legal) (b : Byte) (now : Nat) :
    Holds (s.receive b now) (F ++ [b]) where
  count := by
    have hcount := h.count
    simp only [receive_fb, receiveFb_len, receive_build, List.length_append, List.length_singleton]
    split <;> omega
  ghost := by simp [h.ghost]
  cells := h.receive_cells hb b now
  accum := by
    have hdepth : 2 ≤ s.build.bufDepth := by
      obtain ⟨-, -, hmin, -⟩ := hb
      omega
    have hsum : 2 ≤ s.fb.len ↔ 2 ≤ F.length := by
      rw [← Nat.not_lt, ← Nat.not_lt, h.len_lt_iff hb hdepth]
    rw [receive_acc, sumFrom2_snoc, ← h.accum, accUpdate, accUpdate, if_congr hsum rfl rfl]
  final := fun _ => (getLastD_snoc F b 0x00).symm

theorem Holds.receiveOpt {s : State} {F : List Byte} (h : Holds s F) (hb : s.build.Legal) (rx : Option Byte) (now : Nat) :
    Holds (s.receiveOpt rx now) (F ++ rx.toList) := by
  cases rx with
  | none => simpa using h
  | some b => exact h.receive hb b now

/-- POLL empties the frame held when it closes the buffer, and keeps it otherwise (R102). -/
theorem Holds.pollAt {s : State} {F : List Byte} (h : Holds s F) (now : Nat) :
    Holds (s.pollAt now) (if closes s.build s.fb.len now s.fb.lastTs then [] else F) := by
  rcases pollAt_cases now s with ⟨hc, hp⟩ | ⟨hc, hp⟩
  · rw [hp, hc]
    exact holds_emit _ s
  · rw [hp, hc]
    exact h

/-- Every instruction takes a block that holds F to one that holds what the source's unbounded buffer would (R10). -/
theorem Holds.nextState {s : State} {F : List Byte} (h : Holds s F) (hb : s.build.Legal) (i : Instr) :
    Holds (nextState i s) (heldAfter s F i) := by
  have hbegin := h.beginCycle
  cases i with
  | nop => exact hbegin
  | rxByte b now enc => exact (hbegin.receive hb b now).encodeOpt enc
  | poll now rx enc => exact ((hbegin.pollAt now).receiveOpt (by simpa using hb) rx now).encodeOpt enc
  | encodeShort a => exact hbegin.encodeOpt (some a)
  | reset => exact holds_resetCycle s
  | shortFrame w => exact holds_emit _ _
  | longFrame w => exact holds_emit _ _
  | unknownFrame bytes => exact holds_emit _ _

/-- Settles O26, by the simulation step `Holds.nextState`. -/
theorem frameHeldThroughEveryCycle : Obligations.FrameHeldThroughEveryCycle :=
  fun i s _ hb h => ⟨_, exec_eq i s, h.nextState hb i⟩

end Sys2Proof.Machine

/-!
PROOFS. The statements of 10_state.md: the invariant of the block (R22 to R43), what a host can not observe (R44), and where the
values of DEC, SNAP and the event outputs come from (R41, R42).
-/

namespace Sys2Proof.Machine

/-! ### DECODE and the percent -/

/-- Ten times a byte fits the twelve bits (R81). -/
theorem toNat_percentOf (b : Byte) : (percentOf b).toNat = 10 * b.toNat := by
  have hb : b.toNat < 256 := b.isLt
  rw [percentOf, BitVec.toNat_mul, BitVec.toNat_setWidth]
  change b.toNat % 4096 * 10 % 4096 = 10 * b.toNat
  omega

theorem percentLegal_percentOf (b : Byte) : percentLegal (percentOf b) := by
  have hb : b.toNat < 256 := b.isLt
  rw [percentLegal, toNat_percentOf]
  omega

theorem fields_of_decodeView_short {b : Build} {v : FrameView} {f : ShortFields} (h : decodeView b v = .short f) :
    f = shortFields v.stored := by
  rcases decodeView_cases b v with ⟨-, e⟩ | ⟨-, -, e⟩ | ⟨-, -, e⟩ | ⟨-, -, -, e⟩ | ⟨-, -, -, e⟩ | ⟨-, -, -, e⟩ <;>
    rw [e] at h <;> cases h
  rfl

theorem fields_of_decodeView_long {b : Build} {v : FrameView} {f : SNAP} (h : decodeView b v = .long f) :
    f = longFields v.stored := by
  rcases decodeView_cases b v with ⟨-, e⟩ | ⟨-, -, e⟩ | ⟨-, -, e⟩ | ⟨-, -, -, e⟩ | ⟨-, -, -, e⟩ | ⟨-, -, -, e⟩ <;>
    rw [e] at h <;> cases h
  rfl

theorem classify_ne_unknown {n : Nat} {lf : Byte} (h : classify n lf ≠ .unknown) :
    n = Config.shortLen ∨ n = Config.longLen := by
  cases hc : classify n lf with
  | short => exact .inl ((classify_short n lf).mp hc).2
  | long => exact .inr ((classify_long n lf).mp hc).2
  | unknown => exact absurd hc h

/-- A count that fits the counter is the length every class of frame reports (R30). -/
theorem decodeView_len {b : Build} {v : FrameView} (h : v.n ≤ b.lenMax) : (decodeView b v).len = v.n := by
  rcases decodeView_cases b v with ⟨hn, e⟩ | ⟨-, -, e⟩ | ⟨-, -, e⟩ | ⟨-, -, -, e⟩ | ⟨-, hc, -, e⟩ | ⟨-, hc, -, e⟩ <;> rw [e]
  · exact hn.symm
  · exact min_eq_left h
  · exact min_eq_left h
  · exact min_eq_left h
  · exact ((classify_short _ _).mp hc).2.symm
  · exact ((classify_long _ _).mp hc).2.symm

/-! ### The readings after an emission -/

theorem emit_dec_valid (v : FrameView) (s : State) : (s.emit v).dec.valid = true := by
  simp [State.writeDec]
theorem emit_dec_tag (v : FrameView) (s : State) : (s.emit v).dec.tag = (decodeView s.build v).tag := by
  simp [State.writeDec]
theorem emit_dec_err (v : FrameView) (s : State) : (s.emit v).dec.err = (decodeView s.build v).err := by
  simp

/-- DEC as the host reads it after an emission (R121). -/
theorem readDec_emit (v : FrameView) (s : State) :
    (s.emit v).readDec = some
      { tag := (decodeView s.build v).tag, len := (decodeView s.build v).len, err := (decodeView s.build v).err,
        csumRx := v.csRx, csumCalc := v.csCalc, csumOk := csumOkFlag v.n v.csCalc v.csRx, short := (s.emit v).readShort } := by
  rw [readDec_of_valid (emit_dec_valid v s)]
  simp [State.writeDec]

/-- DEC's Short fields after an emission are those of a Short frame, or as before (R121). -/
theorem emit_shortFields_cases (v : FrameView) (s : State) :
    (∃ f, decodeView s.build v = .short f ∧ (s.emit v).dec.sPowerPct = f.powerPct ∧ (s.emit v).dec.sCmd = f.cmd ∧
      (s.emit v).dec.shortSeen = true) ∨
    ((decodeView s.build v).tag ≠ .short ∧ (s.emit v).dec.sPowerPct = s.dec.sPowerPct ∧ (s.emit v).dec.sCmd = s.dec.sCmd ∧
      (s.emit v).dec.shortSeen = s.dec.shortSeen) := by
  cases hd : decodeView s.build v with
  | short f => rw [emit_short hd]; exact .inl ⟨f, rfl, rfl, rfl, rfl⟩
  | long f => rw [emit_long hd]; exact .inr ⟨nofun, rfl, rfl, rfl⟩
  | unknown n k => rw [emit_unknown hd (decodeView_unknown_err hd)]; exact .inr ⟨nofun, rfl, rfl, rfl⟩

/-- SNAP after an emission is that of a Long frame, or as before (R122). -/
theorem emit_snap_cases (v : FrameView) (s : State) :
    (∃ f, decodeView s.build v = .long f ∧ (s.emit v).snap = f ∧ f.valid = true) ∨
    ((decodeView s.build v).tag ≠ .long ∧ (s.emit v).snap = s.snap) := by
  cases hd : decodeView s.build v with
  | short f => rw [emit_short hd]; exact .inr ⟨nofun, rfl⟩
  | long f => rw [emit_long hd]; exact .inl ⟨f, rfl, rfl, by rw [fields_of_decodeView_long hd]; rfl⟩
  | unknown n k => rw [emit_unknown hd (decodeView_unknown_err hd)]; exact .inr ⟨nofun, rfl⟩

theorem readShort_emit_cases (v : FrameView) (s : State) :
    (∃ f, decodeView s.build v = .short f ∧ (s.emit v).readShort = some f) ∨
    ((decodeView s.build v).tag ≠ .short ∧ (s.emit v).readShort = s.readShort) := by
  rcases emit_shortFields_cases v s with ⟨f, hd, hpower, hcmd, hseen⟩ | ⟨htag, hpower, hcmd, hseen⟩
  · exact .inl ⟨f, hd, by rw [State.readShort, if_pos hseen, hpower, hcmd]⟩
  · exact .inr ⟨htag, by rw [State.readShort, State.readShort, hpower, hcmd, hseen]⟩

theorem readSnap_emit_cases (v : FrameView) (s : State) :
    (∃ f, decodeView s.build v = .long f ∧ (s.emit v).readSnap = some f) ∨
    ((decodeView s.build v).tag ≠ .long ∧ (s.emit v).readSnap = s.readSnap) := by
  rcases emit_snap_cases v s with ⟨f, hd, hsnap, hvalid⟩ | ⟨htag, hsnap⟩
  · exact .inl ⟨f, hd, by rw [readSnap_of_valid (hsnap ▸ hvalid), hsnap]⟩
  · exact .inr ⟨htag, readSnap_congr hsnap⟩

theorem csumOkFlag_of_mismatch {b : Build} {n : Nat} {computed rx : Byte} (h : mismatchFlag b computed rx = true) :
    b.verifyCsum = true ∧ csumOkFlag n computed rx = false := by
  obtain ⟨hverify, hne⟩ : b.verifyCsum = true ∧ computed ≠ rx := by simpa [mismatchFlag] using h
  exact ⟨hverify, by simp [csumOkFlag, hne]⟩

/-- DEC describes one frame after the emission of a non-empty frame whose count fits the counter. -/
theorem decConsistent_emit {v : FrameView} {s : State} (hne : v.n ≠ 0) (hle : v.n ≤ s.build.lenMax) {d : DecReading}
    (h : (s.emit v).readDec = some d) : decConsistent (s.emit v) d := by
  have hlen := decodeView_len hle
  rw [readDec_emit] at h
  obtain rfl := Option.some.inj h
  refine ⟨by simpa [hlen] using hle, by simp only [hlen], ?_⟩
  have hmin : min v.n s.build.lenMax = v.n := min_eq_left hle
  rcases decodeView_cases s.build v with ⟨h0, -⟩ | ⟨-, h3, e⟩ | ⟨h3, -, e⟩ | ⟨-, hc, hm, e⟩ | ⟨-, -, -, e⟩ | ⟨-, -, -, e⟩
  · exact absurd h0 hne
  · rw [e, hmin]
    exact Or.inl ⟨rfl, Nat.pos_of_ne_zero hne, h3⟩
  · rw [e, hmin]
    exact Or.inr (.inl ⟨rfl, h3⟩)
  · rw [e, hmin]
    obtain ⟨hverify, hok⟩ := csumOkFlag_of_mismatch hm
    exact Or.inr (.inr ⟨rfl, by rwa [emit_build], hok, classify_ne_unknown hc⟩)
  · have hpresent : (s.emit v).readShort ≠ none := by
      rw [Ne, readShort_eq_none, emit_short e]
      nofun
    rw [e]
    exact ⟨rfl, rfl, hpresent⟩
  · have hpresent : (s.emit v).readSnap ≠ none := by
      rw [Ne, readSnap_eq_none, emit_long e]
      nofun
    rw [e]
    exact ⟨rfl, rfl, hpresent⟩

/-! ### The stored bytes of a frame that fits the buffer -/

theorem Holds.storedBytes_eq {s : State} {F : List Byte} (h : Holds s F) (hfit : s.fb.len ≤ s.build.bufDepth)
    (htrue : s.fb.nbytes = s.fb.len) : s.storedBytes = F := by
  have hlen : s.storedCount = F.length := by rw [State.storedCount, min_eq_left hfit, ← htrue, h.ghost]
  refine ext_rd8 (by rw [storedBytes_length, hlen]) fun i hi => ?_
  rw [storedBytes_length] at hi
  rw [rd8_storedBytes s i hi]
  exact h.cells i (hlen ▸ hi) (lt_of_lt_of_le hi (min_le_right _ _))

/-- The last byte of a non-empty list is the one at its last offset. -/
theorem getLastD_eq_rd8 {F : List Byte} (h : F ≠ []) : F.getLastD 0x00 = rd8 F (F.length - 1) := by
  rw [rd8_of_lt (Nat.sub_lt (List.length_pos_of_ne_nil h) Nat.one_pos), ← List.getLast_eq_getElem h,
    List.getLastD_eq_getLast?, List.getLast?_eq_some_getLast h, Option.getD_some]

/-- A block that holds F has in FB.LAST_BYTE what F's last cell holds. -/
theorem Holds.lastByte_eq_read {s : State} {F : List Byte} (h : Holds s F) (hpos : 0 < s.fb.len)
    (hfit : s.fb.len ≤ s.build.bufDepth) (htrue : s.fb.nbytes = s.fb.len) :
    s.fb.lastByte = s.fb.buf.read (s.fb.len - 1) := by
  have hlen : s.fb.len = F.length := htrue.symm.trans h.ghost
  have hne : F ≠ [] := List.ne_nil_of_length_pos (hlen ▸ hpos)
  rw [h.final hne, getLastD_eq_rd8 hne, ← h.cells _ (by omega) (by omega), hlen]

/-- In a state of the invariant a frame that fits the buffer is held as the stored bytes. -/
theorem Inv.holds_storedBytes {s : State} (h : Inv s) (hfit : s.fb.len ≤ s.build.bufDepth)
    (htrue : s.fb.nbytes = s.fb.len) : Holds s s.storedBytes := by
  have hcount : s.storedCount = s.fb.len := min_eq_left hfit
  have hlen : s.storedBytes.length = s.fb.len := (storedBytes_length s).trans hcount
  exact {
    count := by rw [hlen, ← htrue]; exact htrue ▸ h.lenGhost
    ghost := by rw [hlen, htrue]
    cells := fun i hi _ => (rd8_storedBytes s i (by rwa [← storedBytes_length])).symm
    accum := h.accSum hfit htrue
    final := fun hne => by
      have hpos : 0 < s.fb.len := hlen ▸ List.length_pos_of_ne_nil hne
      rw [h.lastStored hpos hfit htrue, getLastD_eq_rd8 hne, hlen, rd8_storedBytes s _ (by omega)] }

/-! ### The invariant, operation by operation -/

/-- What ends with the cycle before, the pulses and TX.FRAME, only makes the invariant ask less. -/
theorem Inv.beginCycle {s : State} (h : Inv s) : Inv s.beginCycle :=
  { h with warnWithFrame := nofun, frameWithDec := nofun }

theorem Inv.takeCycle {s : State} (h : Inv s) : Inv s.takeCycle := { h with }

theorem Inv.encodeOut {s : State} (h : Inv s) (a : EncArgs) : Inv (s.encodeOut a) := { h with }

theorem Inv.encodeOpt {s : State} (h : Inv s) : (enc : Option EncArgs) → Inv (s.encodeOpt enc)
  | none => h
  | some a => h.encodeOut a

/-- One more byte leaves a fitting frame only after a fitting frame that had room for it. -/
theorem fits_of_receive_fits {s : State} (hghost : s.fb.len = min s.fb.nbytes s.build.lenMax) (b : Byte) (now : Nat)
    (hfit : (s.receive b now).fb.len ≤ s.build.bufDepth) (htrue : (s.receive b now).fb.nbytes = (s.receive b now).fb.len) :
    s.fb.len ≤ s.build.bufDepth ∧ s.fb.nbytes = s.fb.len := by
  simp only [receive_fb, receiveFb_len, receiveFb_nbytes] at hfit htrue
  split at htrue
  · next hlt =>
    rw [if_pos hlt] at hfit
    omega
  · omega

theorem Inv.receive {s : State} (h : Inv s) (b : Byte) (now : Nat) : Inv (s.receive b now) :=
  have hheld : (s.receive b now).fb.len ≤ s.build.bufDepth → (s.receive b now).fb.nbytes = (s.receive b now).fb.len →
      Holds (s.receive b now) (s.storedBytes ++ [b]) := fun hfit htrue =>
    have ⟨hfit', htrue'⟩ := fits_of_receive_fits h.lenGhost b now hfit htrue
    (h.holds_storedBytes hfit' htrue').receive h.buildLegal b now
  { h with
    bufCanonical := by
      rw [receive_fb, receiveFb_buf]
      split
      · exact wf_write _ _ _ h.bufCanonical
      · exact h.bufCanonical
    bufBounded := by
      rw [bufferBounded, receive_fb, receiveFb_buf]
      split
      · next hlt => exact write_bounded _ _ _ _ hlt h.bufBounded
      · exact h.bufBounded
    lenGhost := by
      have hghost := h.lenGhost
      simp only [receive_fb, receiveFb_len, receiveFb_nbytes, receive_build]
      split <;> omega
    tsWidth := Nat.mod_lt _ (Nat.two_pow_pos _)
    accSum := fun hfit htrue => by
      have hold := hheld hfit htrue
      rw [hold.storedBytes_eq hfit htrue, hold.accum]
    lastStored := fun hpos hfit htrue => (hheld hfit htrue).lastByte_eq_read hpos hfit htrue }

theorem Inv.receiveOpt {s : State} (h : Inv s) (now : Nat) : (rx : Option Byte) → Inv (s.receiveOpt rx now)
  | none => h
  | some b => h.receive b now

/-- The emission of a non-empty frame whose count fits the counter keeps the invariant. -/
theorem Inv.emit {s : State} (h : Inv s) (hev : s.ev = EV.quiet) {v : FrameView} (hne : v.n ≠ 0) (hle : v.n ≤ s.build.lenMax) :
    Inv (s.emit v) where
  buildLegal := by simpa using h.buildLegal
  bufCanonical := by simpa using h.bufCanonical
  bufBounded := by simpa [bufferBounded] using h.bufBounded
  lenGhost := by simp
  tsWidth := by simpa using h.tsWidth
  accSum := fun hfit htrue => by
    rw [(holds_emit v s).storedBytes_eq hfit htrue, (holds_emit v s).accum]
  lastStored := fun hpos hfit htrue => (holds_emit v s).lastByte_eq_read hpos hfit htrue
  decOne := fun d => decConsistent_emit hne hle
  shortPercent := fun f hf => by
    rcases readShort_emit_cases v s with ⟨g, hd, hg⟩ | ⟨-, hsame⟩
    · obtain rfl : g = f := Option.some.inj (hg.symm.trans hf)
      rw [fields_of_decodeView_short hd]
      exact percentLegal_percentOf _
    · exact h.shortPercent f (hsame ▸ hf)
  snapPercent := fun f hf => by
    rcases readSnap_emit_cases v s with ⟨g, hd, hg⟩ | ⟨-, hsame⟩
    · obtain rfl : g = f := Option.some.inj (hg.symm.trans hf)
      rw [fields_of_decodeView_long hd]
      exact percentLegal_percentOf _
    · exact h.snapPercent f (hsame ▸ hf)
  absentTogether := fun hnone => by
    rw [readDec_emit] at hnone
    cases hnone
  warnWithFrame := by simp
  frameWithDec := fun _ => ⟨_, readDec_emit v s, by simp [hev]⟩

theorem Inv.len_le_lenMax {s : State} (h : Inv s) : s.fb.len ≤ s.build.lenMax := by
  rw [h.lenGhost]
  exact min_le_right _ _

theorem Inv.pollAt {s : State} (h : Inv s) (hev : s.ev = EV.quiet) (now : Nat) : Inv (s.pollAt now) := by
  rcases pollAt_cases now s with ⟨hc, hp⟩ | ⟨-, hp⟩ <;> rw [hp]
  · exact h.emit hev ((closes_iff _ _ _ _).mp hc).1 h.len_le_lenMax
  · exact h

/-- A legal block that is empty and has decoded nothing is in the invariant, whatever cells its buffer lists below BUF_DEPTH. -/
theorem inv_of_resetGroups {s : State} (hbuild : s.build.Legal) (hwf : s.fb.buf.wf = true) (hbound : bufferBounded s = true)
    (hfb : s.fb = { FB.reset with buf := s.fb.buf }) (hacc : s.acc = 0x00) (hdec : s.dec = DEC.reset)
    (hsnap : s.snap = SNAP.reset) (hev : s.ev = EV.quiet) : Inv s := by
  have hlen : s.fb.len = 0 := by rw [hfb]; rfl
  have hnbytes : s.fb.nbytes = 0 := by rw [hfb]; rfl
  have hstamp : s.fb.lastTs = 0 := by rw [hfb]; rfl
  have hempty : Holds s [] := holds_nil hlen hnbytes hacc
  have hreadDec : s.readDec = none := by rw [readDec_eq_none, hdec]; rfl
  have hreadShort : s.readShort = none := by rw [readShort_eq_none, hdec]; rfl
  have hreadSnap : s.readSnap = none := by rw [readSnap_eq_none, hsnap]; rfl
  exact {
    buildLegal := hbuild
    bufCanonical := hwf
    bufBounded := hbound
    lenGhost := by simp [hlen, hnbytes]
    tsWidth := hstamp ▸ Nat.two_pow_pos _
    accSum := fun hfit htrue => by rw [hempty.storedBytes_eq hfit htrue, hempty.accum]
    lastStored := fun hpos => absurd hlen (Nat.ne_of_gt hpos)
    decOne := by simp [hreadDec]
    shortPercent := by simp [hreadShort]
    snapPercent := by simp [hreadSnap]
    absentTogether := fun _ => ⟨hreadShort, hreadSnap⟩
    warnWithFrame := by simp [hev]
    frameWithDec := by simp [hev] }

theorem Inv.resetCycle {s : State} (h : Inv s) : Inv s.resetCycle :=
  inv_of_resetGroups h.buildLegal h.bufCanonical h.bufBounded rfl rfl rfl rfl rfl

/-- Every cycle the host can present keeps the invariant. The rows of the wire frames are not among them (R69). -/
theorem Inv.cycle {s : State} (h : Inv s) (p : Ports) : Inv (nextState (decodeCycle p) s) := by
  unfold decodeCycle
  split
  · exact h.resetCycle
  dsimp only
  split
  · exact ((h.beginCycle.pollAt rfl _).receiveOpt _ _).encodeOpt _
  split
  · exact (h.beginCycle.receive _ _).encodeOpt _
  split
  · exact h.beginCycle.encodeOut _
  · exact h.beginCycle

/-- Settles O45, by the invariant's lemma for each operation of a cycle. -/
theorem invariantKept : Obligations.InvariantKept :=
  fun s h => ⟨_, step_eq s, h.takeCycle.cycle s.nextPorts⟩

/-- Settles O44: the state after reset is empty, with no cell listed. -/
theorem invariantAtReset : Obligations.InvariantAtReset :=
  inv_of_resetGroups (by decide) rfl rfl rfl rfl rfl rfl rfl

/-- The largest count of a legal build is not 0. -/
theorem lenMax_pos_of_legal {b : Build} (h : b.Legal) : 0 < b.lenMax := by
  obtain ⟨-, -, hmin, hdepth⟩ := h
  omega

/-- Settles O46: a run keeps the invariant and the build, and the invariant has FB.LEN as the saturated true count. -/
theorem lengthIsTrueCount : Obligations.LengthIsTrueCount := by
  intro n s hs
  have hstep : ∀ u, Inv u ∧ u.build = s.build → ∃ t, step u = .next t ∧ Inv t ∧ t.build = s.build :=
    fun u ⟨hu, hbuild⟩ => ⟨_, step_eq u, hu.takeCycle.cycle _, by simp [hbuild]⟩
  obtain ⟨t, hrun, ht, hbuild⟩ := run_keeps hstep n s ⟨hs, rfl⟩
  have hlen : t.fb.len = min t.fb.nbytes (2 ^ s.build.lenW - 1) := hbuild ▸ ht.lenGhost
  have hpos : 0 < 2 ^ s.build.lenW - 1 := lenMax_pos_of_legal hs.buildLegal
  exact ⟨t, hrun, by omega, by omega, by omega⟩

/-! ### What can not be observed -/

theorem SameObservable.storedCount {s t : State} (h : SameObservable s t) : s.storedCount = t.storedCount := by
  rw [State.storedCount, State.storedCount, h.len, h.build]

theorem SameObservable.storedBytes {s t : State} (h : SameObservable s t) : s.storedBytes = t.storedBytes :=
  storedBytes_congr h.storedCount h.cells

/-- What POLL hands to DECODE shows nothing hidden. -/
theorem SameObservable.heldView {s t : State} (h : SameObservable s t) (hne : s.fb.len ≠ 0) : s.heldView = t.heldView := by
  simp only [State.heldView, h.len, h.storedBytes, h.acc, h.lastByte hne]

/-- Whether POLL closes the buffer rests on nothing hidden: of an empty one FB.LAST_TS is not looked at. -/
theorem SameObservable.closes {s t : State} (h : SameObservable s t) (now : Nat) :
    closes s.build s.fb.len now s.fb.lastTs = closes t.build t.fb.len now t.fb.lastTs := by
  by_cases hne : s.fb.len = 0
  · simp [Machine.closes, ← h.len, hne]
  · rw [h.build, h.stamp hne, h.len]

/-- Two empty buffers with no byte of a frame, under one build, agree wherever it counts. -/
theorem sameObservable_of_empty {s t : State} (hbuild : s.build = t.build) (hlen : s.fb.len = 0) (hlen' : t.fb.len = 0)
    (hnbytes : s.fb.nbytes = t.fb.nbytes) (hacc : s.acc = t.acc) (hdec : s.dec = t.dec) (hsnap : s.snap = t.snap)
    (hev : s.ev = t.ev) (htx : s.ev.txValid = true → s.txFrame = t.txFrame) (hinputs : s.inputs = t.inputs) :
    SameObservable s t where
  build := hbuild
  len := hlen.trans hlen'.symm
  nbytes := hnbytes
  cells := fun i hi => absurd hi (by simp [State.storedCount, hlen])
  stamp := fun hne => absurd hlen hne
  lastByte := fun hne => absurd hlen hne
  acc := hacc
  dec := hdec
  snap := hsnap
  ev := hev
  tx := htx
  inputs := hinputs

theorem SameObservable.beginCycle {s t : State} (h : SameObservable s t) : SameObservable s.beginCycle t.beginCycle :=
  { h with ev := rfl, tx := nofun }

theorem SameObservable.takeCycle {s t : State} (h : SameObservable s t) : SameObservable s.takeCycle t.takeCycle :=
  { h with inputs := congrArg List.tail h.inputs }

theorem SameObservable.encodeOut {s t : State} (h : SameObservable s t) (a : EncArgs) :
    SameObservable (s.encodeOut a) (t.encodeOut a) :=
  { h with ev := by simp [h.ev], tx := fun _ => rfl }

theorem SameObservable.encodeOpt {s t : State} (h : SameObservable s t) :
    (enc : Option EncArgs) → SameObservable (s.encodeOpt enc) (t.encodeOpt enc)
  | none => h
  | some a => h.encodeOut a

/-- After a byte the cells of the frame agree: the new one holds the byte on both sides. -/
theorem SameObservable.receive_cells {s t : State} (h : SameObservable s t) (b : Byte) (now : Nat) (i : Nat)
    (hi : i < (s.receive b now).storedCount) :
    (s.receive b now).fb.buf.read i = (t.receive b now).fb.buf.read i := by
  have hstored : i ≠ s.fb.len → i < s.storedCount := by
    simp only [State.storedCount, receive_fb, receiveFb_len, receive_build] at hi ⊢
    split at hi <;> omega
  have hdepth : i < s.build.bufDepth := lt_of_lt_of_le hi (min_le_right _ _)
  simp only [receive_fb, receiveFb_buf, ← h.build, ← h.len]
  split
  · next hlt =>
    rw [read_write, read_write]
    split
    · rfl
    · next hne => exact h.cells i (hstored hne)
  · next hge => exact h.cells i (hstored (by omega))

theorem SameObservable.receive {s t : State} (h : SameObservable s t) (b : Byte) (now : Nat) :
    SameObservable (s.receive b now) (t.receive b now) :=
  { h with
    len := by simp [h.len, h.build]
    nbytes := by simp [h.nbytes]
    cells := h.receive_cells b now
    stamp := fun _ => by simp [h.build]
    lastByte := fun _ => rfl
    acc := by simp [h.len, h.acc] }

theorem SameObservable.receiveOpt {s t : State} (h : SameObservable s t) (now : Nat) :
    (rx : Option Byte) → SameObservable (s.receiveOpt rx now) (t.receiveOpt rx now)
  | none => h
  | some b => h.receive b now

/-- The emission of one frame on both sides. -/
theorem SameObservable.emit {s t : State} (h : SameObservable s t) (v : FrameView) : SameObservable (s.emit v) (t.emit v) := by
  have hdec : (s.emit v).dec = (t.emit v).dec := by simp [State.writeDec, h.build, h.dec]
  have hsnap : (s.emit v).snap = (t.emit v).snap := by
    rw [emit_snap, emit_snap, h.build]
    cases decodeView t.build v <;> simp [h.snap]
  exact sameObservable_of_empty (by simp [h.build]) (by simp) (by simp) (by simp) (by simp) hdec hsnap
    (by simp [h.ev, h.build]) (by simpa using h.tx) (by simp [h.inputs])

theorem SameObservable.pollAt {s t : State} (h : SameObservable s t) (now : Nat) :
    SameObservable (s.pollAt now) (t.pollAt now) := by
  unfold State.pollAt
  rw [← h.closes now]
  split
  · next hc =>
    rw [h.heldView ((closes_iff _ _ _ _).mp hc).1]
    exact h.emit _
  · exact h

theorem SameObservable.resetCycle {s t : State} (h : SameObservable s t) : SameObservable s.resetCycle t.resetCycle :=
  sameObservable_of_empty h.build rfl rfl rfl rfl rfl rfl rfl nofun h.inputs

/-- Every instruction keeps what is hidden hidden. -/
theorem SameObservable.nextState {s t : State} (h : SameObservable s t) (i : Instr) :
    SameObservable (nextState i s) (nextState i t) := by
  have hbegin := h.beginCycle
  cases i with
  | nop => exact hbegin
  | rxByte b now enc => exact (hbegin.receive b now).encodeOpt enc
  | poll now rx enc => exact ((hbegin.pollAt now).receiveOpt now rx).encodeOpt enc
  | encodeShort a => exact hbegin.encodeOut a
  | reset => exact h.resetCycle
  | shortFrame w => exact hbegin.emit _
  | longFrame w => exact hbegin.emit _
  | unknownFrame F => exact hbegin.emit _

/-- Equal DEC, SNAP and pulses, and TX.FRAME while valid, are all the host reads. -/
theorem SameObservable.readings {s t : State} (h : SameObservable s t) :
    s.readDec = t.readDec ∧ s.readShort = t.readShort ∧ s.readSnap = t.readSnap ∧ s.readTx = t.readTx ∧
      { s.outputs with txFrame := 0 } = { t.outputs with txFrame := 0 } := by
  have htx : s.readTx = t.readTx := by
    rw [State.readTx, State.readTx, ← h.ev]
    split
    · next hvalid => rw [h.tx hvalid]
    · rfl
  have houtputs : { s.outputs with txFrame := 0 } = { t.outputs with txFrame := 0 } := by
    simp only [State.outputs, h.dec, h.snap, h.ev]
  exact ⟨readDec_congr h.dec, readShort_congr h.dec, readSnap_congr h.snap, htx, houtputs⟩

/-- Settles O48: the host reads nothing hidden, and both blocks take the same cycle, which keeps what is hidden hidden. -/
theorem hiddenStateStaysHidden : Obligations.HiddenStateStaysHidden := by
  intro s t h
  have hports : s.nextPorts = t.nextPorts := congrArg (List.headD · Ports.idle) h.inputs
  refine ⟨h.readings, _, _, step_eq s, step_eq t, ?_⟩
  rw [hports]
  exact h.takeCycle.nextState _

/-! ### Where DEC, SNAP and the pulses come from -/

@[simp] theorem encodeOpt_ev (enc : Option EncArgs) (s : State) :
    (s.encodeOpt enc).ev = { s.ev with txValid := s.ev.txValid || enc.isSome } := by
  cases enc <;> simp

/-- A cycle that is no RESET and emits no frame leaves DEC and SNAP and pulses at most EV.TX_VALID (R41, R42). -/
theorem nextState_of_not_emitsFrame {i : Instr} {s : State} (hi : i ≠ .reset) (he : emitsFrame s i = false) :
    (nextState i s).dec = s.dec ∧ (nextState i s).snap = s.snap ∧
      (nextState i s).ev = { EV.quiet with txValid := (carriesEnc i).isSome } := by
  cases i with
  | nop => exact ⟨rfl, rfl, rfl⟩
  | rxByte b now enc => simp [nextState, carriesEnc]
  | poll now rx enc =>
    have hpoll : s.beginCycle.pollAt now = s.beginCycle := by
      rcases pollAt_cases now s.beginCycle with ⟨hc, -⟩ | ⟨-, hp⟩
      · exact absurd (hc.symm.trans he) nofun
      · exact hp
    simp [nextState, carriesEnc, hpoll]
  | encodeShort a => exact ⟨rfl, rfl, rfl⟩
  | reset => exact absurd rfl hi
  | shortFrame w => cases he
  | longFrame w => cases he
  | unknownFrame F => cases he

/-- In a cycle that emits a frame DEC, SNAP and the frame pulses are those of the emission: the byte and the encode that share the
cycle add nothing but EV.TX_VALID (R121, R122, R156). -/
theorem nextState_of_emitsFrame {i : Instr} {s : State} (he : emitsFrame s i = true) :
    ∃ v, (nextState i s).dec = (s.emit v).dec ∧ (nextState i s).snap = (s.emit v).snap ∧
      (nextState i s).ev =
        { frameValid := true, warn := warnFlag (decodeView s.build v).err, txValid := (carriesEnc i).isSome } := by
  have hemit : ∀ v, (s.beginCycle.emit v).dec = (s.emit v).dec ∧ (s.beginCycle.emit v).snap = (s.emit v).snap ∧
      (s.beginCycle.emit v).ev = { frameValid := true, warn := warnFlag (decodeView s.build v).err, txValid := false } := by
    intro v
    cases hd : decodeView s.build v <;> simp [State.writeDec, hd]
  cases i with
  | nop => cases he
  | rxByte b now enc => cases he
  | poll now rx enc =>
    have hpoll : s.beginCycle.pollAt now = s.beginCycle.emit s.heldView := by
      rcases pollAt_cases now s.beginCycle with ⟨-, hp⟩ | ⟨hc, -⟩
      · exact hp
      · exact absurd (hc.symm.trans he) nofun
    obtain ⟨hdec, hsnap, hev⟩ := hemit s.heldView
    refine ⟨s.heldView, ?_, ?_, ?_⟩
    · rw [nextState, encodeOpt_dec, receiveOpt_dec, hpoll, hdec]
    · rw [nextState, encodeOpt_snap, receiveOpt_snap, hpoll, hsnap]
    · rw [nextState, encodeOpt_ev, receiveOpt_ev, hpoll, hev, Bool.false_or, carriesEnc]
  | encodeShort a => cases he
  | reset => cases he
  | shortFrame w => exact ⟨_, hemit _⟩
  | longFrame w => exact ⟨_, hemit _⟩
  | unknownFrame F => exact ⟨_, hemit _⟩

/-- What does not write DEC is no RESET and emits no frame. -/
theorem notEmits_of_writesDec_eq_false {s : State} {i : Instr} (h : writesDec s i = false) : i ≠ .reset ∧ emitsFrame s i = false := by
  cases i with
  | reset => cases h
  | _ => exact ⟨nofun, h⟩

/-- Settles O17: a cycle that emits nothing writes neither, and an emission writes each with a frame of its class only. -/
theorem fieldsComeFromTheirFrame : Obligations.FieldsComeFromTheirFrame := by
  intro i s hi
  refine ⟨_, exec_eq i s, ?_⟩
  cases he : emitsFrame s i with
  | false =>
    obtain ⟨hdec, hsnap, -⟩ := nextState_of_not_emitsFrame hi he
    exact ⟨.inl hsnap, .inl (by simp [hdec])⟩
  | true =>
    obtain ⟨v, hdec, hsnap, hev⟩ := nextState_of_emitsFrame he
    rw [hdec, hsnap, hev, emit_dec_tag]
    constructor
    · rcases emit_snap_cases v s with ⟨f, hd, hf, hvalid⟩ | ⟨-, hsame⟩
      · exact .inr ⟨by rw [hd]; rfl, hf ▸ hvalid, rfl⟩
      · exact .inl hsame
    · rcases emit_shortFields_cases v s with ⟨f, hd, -⟩ | ⟨-, hpower, hcmd, -⟩
      · exact .inr ⟨by rw [hd]; rfl, rfl⟩
      · exact .inl ⟨hpower, hcmd⟩

/-- Settles O18: what writes DEC or SNAP is RESET or emits a frame, and nothing else does. -/
theorem decAndSnapHold : Obligations.DecAndSnapHold := by
  intro i s h
  obtain ⟨hi, he⟩ := notEmits_of_writesDec_eq_false h
  obtain ⟨hdec, hsnap, -⟩ := nextState_of_not_emitsFrame hi he
  exact ⟨_, exec_eq i s, hdec, hsnap⟩

/-- The frame in TX.FRAME comes from the ENCODE_SHORT of the cycle (R153). -/
theorem nextState_txFrame {i : Instr} {a : EncArgs} (s : State) (h : carriesEnc i = some a) :
    (nextState i s).txFrame = encodedFrame a := by
  cases i with
  | rxByte b now enc => obtain rfl : enc = some a := h; rfl
  | poll now rx enc => obtain rfl : enc = some a := h; rfl
  | encodeShort c => obtain rfl : c = a := Option.some.inj h; rfl
  | _ => cases h

/-- Settles O19: a RESET pulses nothing, and of another cycle the pulses follow from whether it emits a frame. -/
theorem pulsesLastOneCycle : Obligations.PulsesLastOneCycle := by
  intro i s
  have hpulses : (nextState i s).ev.frameValid = emitsFrame s i ∧
      ((nextState i s).ev.warn = true ↔ emitsFrame s i = true ∧ (nextState i s).dec.err ≠ .noError) ∧
      (nextState i s).ev.txValid = (carriesEnc i).isSome := by
    by_cases hi : i = .reset
    · subst hi
      exact ⟨rfl, by simp [nextState, emitsFrame], rfl⟩
    cases he : emitsFrame s i with
    | false =>
      obtain ⟨-, -, hev⟩ := nextState_of_not_emitsFrame hi he
      simp [hev]
    | true =>
      obtain ⟨v, hdec, -, hev⟩ := nextState_of_emitsFrame he
      rw [hdec, hev, emit_dec_err]
      simp [warnFlag]
  obtain ⟨hframe, hwarn, htx⟩ := hpulses
  exact ⟨_, exec_eq i s, hframe, hwarn, htx, fun _ => nextState_txFrame s⟩

/-! ### Reset and receipt -/

/-- Settles O1: `State.reset` is written with the value of R43 in each element. -/
theorem resetStateHasResetValues : Obligations.ResetStateHasResetValues := by constructor <;> rfl

theorem runAll_cons (i : Instr) (l : List Instr) (s : State) : runAll (i :: l) s = runAll l (nextState i s) := by
  rw [runAll, exec_eq]

/-- Bytes received one per cycle are appended to the frame held, and DEC, SNAP and the build stand. -/
theorem Holds.receiveCycles (l : List (Byte × Nat)) {s : State} {F : List Byte} (h : Holds s F) (hb : s.build.Legal) :
    ∃ t, runAll (receiveCycles l) s = some t ∧ Holds t (F ++ l.map Prod.fst) ∧ t.dec = s.dec ∧ t.snap = s.snap ∧
      t.build = s.build := by
  induction l generalizing s F with
  | nil => exact ⟨s, rfl, by simpa using h, rfl, rfl, rfl⟩
  | cons x l ih =>
    obtain ⟨b, now⟩ := x
    obtain ⟨t, hrun, hheld, hrest⟩ := ih (h.nextState hb (.rxByte b now none)) hb
    exact ⟨t, (runAll_cons _ _ s).trans hrun, by simpa [heldAfter] using hheld, hrest⟩

/-- Settles O25: the frame held at the start is empty. -/
theorem receivedBytesAreHeld : Obligations.ReceivedBytesAreHeld :=
  fun _ l hb h => h.receiveCycles l hb

end Sys2Proof.Machine

/-!
PROOFS. The statement of 20_memory.md: a frame is emitted at most once (R54), for POLL empties the buffer it closes (R102).
-/

namespace Sys2Proof.Machine

theorem pollAt_of_closes {now : Nat} {s : State} (h : closes s.build s.fb.len now s.fb.lastTs = true) :
    s.pollAt now = s.emit s.heldView :=
  if_pos h

/-- An empty buffer is not closed, whatever its FB.LAST_TS (R102, R103). -/
theorem closes_of_len_eq_zero (b : Build) {len : Nat} (now last : Nat) (h : len = 0) : closes b len now last = false := by
  simp [closes, h]

theorem pollAt_of_len_eq_zero (now : Nat) {s : State} (h : s.fb.len = 0) : s.pollAt now = s :=
  if_neg (by simp [closes_of_len_eq_zero _ _ _ h])

/-- A POLL that closes the buffer, in a cycle without a byte, pulses EV.FRAME_VALID and leaves the buffer empty (R102). -/
theorem nextState_poll_of_closes {s : State} {now : Nat} (enc : Option EncArgs)
    (h : closes s.build s.fb.len now s.fb.lastTs = true) :
    (nextState (.poll now none enc) s).ev.frameValid = true ∧ (nextState (.poll now none enc) s).fb.len = 0 ∧
      (nextState (.poll now none enc) s).acc = 0x00 := by
  have hpoll : s.beginCycle.pollAt now = s.beginCycle.emit s.heldView := pollAt_of_closes h
  simp [nextState, hpoll]

/-- A POLL of an empty buffer, in a cycle without a byte, pulses no EV.FRAME_VALID and leaves FB, CS, DEC and SNAP (R103). -/
theorem nextState_poll_of_len_eq_zero {s : State} (now : Nat) (enc : Option EncArgs) (h : s.fb.len = 0) :
    (nextState (.poll now none enc) s).ev.frameValid = false ∧ (nextState (.poll now none enc) s).fb = s.fb ∧
      (nextState (.poll now none enc) s).acc = s.acc ∧ (nextState (.poll now none enc) s).dec = s.dec ∧
      (nextState (.poll now none enc) s).snap = s.snap := by
  have hpoll : s.beginCycle.pollAt now = s.beginCycle := pollAt_of_len_eq_zero now h
  simp [nextState, hpoll]

/-- Settles O21: the first POLL leaves the buffer empty, and a POLL of an empty buffer emits nothing. -/
theorem secondPollFindsNothing : Obligations.SecondPollFindsNothing := by
  intro s now later enc enc' hcloses
  obtain ⟨hframe, hlen, hacc⟩ := nextState_poll_of_closes enc hcloses
  obtain ⟨hframe', hfb, hacc', hdec, hsnap⟩ := nextState_poll_of_len_eq_zero later enc' hlen
  exact ⟨_, _, exec_eq _ s, exec_eq _ _, hframe, hframe', hfb ▸ hlen, hacc'.trans hacc, hdec, hsnap⟩

end Sys2Proof.Machine

/-!
PROOFS. The statements of 30_encoding.md: the two encodings are inverse to their decoders (R64, R72 to R74), what a step makes of a
cycle's ports (R68), and the code tables of the output ports (R61, R62, R77 to R79).
-/

namespace Sys2Proof

/-! ### The byte layouts -/

/-- A stretch of a frame is the bytes read at its offsets. -/
theorem take_drop_eq_map_rd8 {F : List Byte} {i n : Nat} (h : i + n ≤ F.length) :
    (F.drop i).take n = (List.range' i n).map (rd8 F) := by
  apply List.ext_getElem
  · simpa using Nat.le_sub_of_add_le' h
  · intro j hj hj'
    have hjn : j < n := by simpa using hj'
    have hij : i + j < F.length := by omega
    simp [rd8_of_lt hij]

/-- A frame of n bytes is its n bytes in offset order. -/
theorem eq_map_rd8 {F : List Byte} {n : Nat} (h : F.length = n) : F = (List.range' 0 n).map (rd8 F) := by
  simpa [← h] using take_drop_eq_map_rd8 (F := F) (i := 0) (Nat.zero_add _).le

theorem hiByte_rd16be {F : List Byte} {i : Nat} (h : i + 1 < F.length) : hiByte (rd16be F i) = rd8 F i :=
  (congrArg hiByte (rd16be_of_lt h)).trans (hiByte_append _ _)

theorem loByte_rd16be {F : List Byte} {i : Nat} (h : i + 1 < F.length) : loByte (rd16be F i) = rd8 F (i + 1) :=
  (congrArg loByte (rd16be_of_lt h)).trans (loByte_append _ _)

theorem shortWire_ofBytes_bytes (w : ShortWire) : ShortWire.ofBytes w.bytes = w := rfl

/-- The fields of a Short frame, written out again, are the frame (R73). -/
theorem shortWire_bytes_ofBytes {F : List Byte} (hlf : rd8 F 3 = Config.shortField) (hlen : F.length = 16) :
    (ShortWire.ofBytes F).bytes = F := by
  calc (ShortWire.ofBytes F).bytes = (List.range' 0 16).map (rd8 F) := by
        simp [ShortWire.ofBytes, ShortWire.bytes, List.range', hlf]
    _ = F := (eq_map_rd8 hlen).symm

/-- The fields of a Long frame, written out again, are the frame, the gaps of R75 with them (R74). -/
theorem longWire_bytes_ofBytes {F : List Byte} (hlf : rd8 F 3 = Config.longField) (hlen : F.length = 56) :
    (LongWire.ofBytes F).bytes = F := by
  have gap7 := take_drop_eq_map_rd8 (F := F) (i := 7) (n := 4) (by omega)
  have gap30 := take_drop_eq_map_rd8 (F := F) (i := 30) (n := 22) (by omega)
  calc (LongWire.ofBytes F).bytes = (List.range' 0 56).map (rd8 F) := by
        simp [LongWire.ofBytes, LongWire.bytes, List.range', hlf, hlen, gap7, gap30, hiByte_rd16be, loByte_rd16be]
    _ = F := (eq_map_rd8 hlen).symm

/-- The fields read from a Long frame's bytes are those it was written from, the gaps of the right widths with them (R74, R75). -/
theorem longWire_ofBytes_bytes (w : LongWire) (h7 : w.gap7.length = 4) (h30 : w.gap30.length = 22) :
    LongWire.ofBytes w.bytes = w := by
  cases w
  obtain ⟨a, b, c, d, rfl⟩ := list4 h7
  simp [LongWire.ofBytes, LongWire.bytes, rd16be, rd8_append_right, show _ = 22 from h30]

/-! ### The class of a frame -/

/-- What a frame decodes to: the row whose shape it has, length field and exact length jointly, or else UNKNOWN_FRAME (R72). -/
theorem decodeWire_cases (F : List Byte) :
    (rd8 F 3 = 0x0B ∧ F.length = 16 ∧ decodeWire F = .shortFrame (ShortWire.ofBytes F)) ∨
    (rd8 F 3 = 0x33 ∧ F.length = 56 ∧ decodeWire F = .longFrame (LongWire.ofBytes F)) ∨
    (¬(rd8 F 3 = 0x0B ∧ F.length = 16) ∧ ¬(rd8 F 3 = 0x33 ∧ F.length = 56) ∧ decodeWire F = .unknownFrame F) := by
  rw [← classify_short, ← classify_long]
  cases hc : classify F.length (rd8 F 3) with
  | short =>
    obtain ⟨hlf, hlen⟩ := (classify_short _ _).mp hc
    exact .inl ⟨hlf, hlen, by simp [decodeWire, hc]⟩
  | long =>
    obtain ⟨hlf, hlen⟩ := (classify_long _ _).mp hc
    exact .inr (.inl ⟨hlf, hlen, by simp [decodeWire, hc]⟩)
  | unknown => exact .inr (.inr ⟨nofun, nofun, by simp [decodeWire, hc]⟩)

theorem decodeWire_of_not_knownShape {F : List Byte} (h : knownShape F = false) : decodeWire F = .unknownFrame F := by
  have hc : classify F.length (rd8 F 3) = .unknown := not_not.mp ((knownShape_iff F).not.mp (by simp [h]))
  simp [decodeWire, hc]

theorem decodeWire_shortBytes (w : ShortWire) : decodeWire w.bytes = .shortFrame w := rfl

theorem decodeWire_longBytes (w : LongWire) (h7 : w.gap7.length = 4) (h30 : w.gap30.length = 22) :
    decodeWire w.bytes = .longFrame w := by
  have hc : classify w.bytes.length (rd8 w.bytes 3) = .long :=
    (classify_long _ _).mpr ⟨rfl, longBytes_length w h7 h30⟩
  simp [decodeWire, hc, longWire_ofBytes_bytes w h7 h30]

/-! ### The cycle of an operation row -/

/-- `rst` overrides the strobes (R68). -/
theorem decodeCycle_of_rst {p : Ports} (h : p.rst = true) : decodeCycle p = .reset := if_pos h

/-- POLL runs first in its cycle, so it names the row; the other strobes select its companions (R64, R156). -/
theorem decodeCycle_of_pollReq {p : Ports} (hrst : p.rst = false) (hpoll : p.pollReq = true) :
    decodeCycle p = .poll p.now (if p.rxValid then some p.rxByte else none) (if p.encReq then some p.encArgs else none) := by
  simp [decodeCycle, hrst, hpoll]

theorem decodeCycle_of_rxValid {p : Ports} (hrst : p.rst = false) (hpoll : p.pollReq = false) (hrx : p.rxValid = true) :
    decodeCycle p = .rxByte p.rxByte p.now (if p.encReq then some p.encArgs else none) := by
  simp [decodeCycle, hrst, hpoll, hrx]

theorem decodeCycle_of_encReq {p : Ports} (hrst : p.rst = false) (hpoll : p.pollReq = false) (hrx : p.rxValid = false)
    (henc : p.encReq = true) : decodeCycle p = .encodeShort p.encArgs := by
  simp [decodeCycle, hrst, hpoll, hrx, henc]

theorem decodeCycle_of_no_strobe {p : Ports} (hrst : p.rst = false) (hpoll : p.pollReq = false) (hrx : p.rxValid = false)
    (henc : p.encReq = false) : decodeCycle p = .nop := by
  simp [decodeCycle, hrst, hpoll, hrx, henc]

/-! ### The encodings against their decoders -/

theorem decode_encode_rxByte (b : Byte) (now : Nat) (enc : Option EncArgs) :
    decode (encode (.rxByte b now enc)) = .rxByte b now enc := by
  cases enc <;> rfl

theorem decode_encode_poll (now : Nat) (rx : Option Byte) (enc : Option EncArgs) :
    decode (encode (.poll now rx enc)) = .poll now rx enc := by
  cases rx <;> cases enc <;> rfl

/-- Settles O42: an operation row is read back from its ports, a frame row from its bytes. -/
theorem decodeOfEncode : Obligations.DecodeOfEncode := by
  intro build i hwf
  cases i with
  | nop => rfl
  | rxByte b now enc => exact decode_encode_rxByte b now enc
  | poll now rx enc => exact decode_encode_poll now rx enc
  | encodeShort a => rfl
  | reset => rfl
  | shortFrame w => exact decodeWire_shortBytes w
  | longFrame w =>
    obtain ⟨h7, h30⟩ : w.gap7.length = 4 ∧ w.gap30.length = 22 := by simpa [Instr.wellFormed] using hwf
    exact decodeWire_longBytes w h7 h30
  | unknownFrame F => exact decodeWire_of_not_knownShape (by simpa [Instr.wellFormed] using hwf)

/-- Settles O43, class by class: the bytes of a known shape are written out again, those of an Unknown frame are kept. -/
theorem encodeOfDecodedFrame : Obligations.EncodeOfDecodedFrame := by
  intro F
  rcases decodeWire_cases F with ⟨hlf, hlen, hd⟩ | ⟨hlf, hlen, hd⟩ | ⟨-, -, hd⟩
  · rw [hd, encode, shortWire_bytes_ofBytes hlf hlen]
  · rw [hd, encode, longWire_bytes_ofBytes hlf hlen]
  · rw [hd, encode]

/-- Settles O40: the three outcomes of `decodeWire_cases` exclude one another. -/
theorem classIsExact : Obligations.ClassIsExact := by
  intro F
  rcases decodeWire_cases F with ⟨hlf, hlen, hd⟩ | ⟨hlf, hlen, hd⟩ | ⟨hshort, hlong, hd⟩
  · simp [hd, hlf, hlen]
  · simp [hd, hlf, hlen]
  · exact ⟨fun _ => hd, iff_of_false (by simp [hd]) hshort, iff_of_false (by simp [hd]) hlong,
      iff_of_true hd ⟨hshort, hlong⟩⟩

/-- Settles O39: one clause for each operation that can name the row. -/
theorem strobePatternsDefined : Obligations.StrobePatternsDefined :=
  fun _ hrst => ⟨decodeCycle_of_pollReq hrst, decodeCycle_of_rxValid hrst, decodeCycle_of_encReq hrst,
    decodeCycle_of_no_strobe hrst⟩

/-- Settles O41: each word is a fixed item, which the decoder evaluates. -/
theorem tableWordsDecode : Obligations.TableWordsDecode :=
  ⟨rfl, rfl, rfl, rfl, rfl, rfl, ⟨_, rfl⟩, ⟨_, rfl⟩⟩

end Sys2Proof

namespace Sys2Proof.Machine

/-! ### The step of a presented cycle -/

/-- A presented cycle is taken from the list and the instruction its ports decode to is run (R64). -/
theorem step_present (p : Ports) (s : State) : step (s.present p) = exec (decodeCycle p) s := rfl

/-- With no cycle presented the step is NOP (R65, R170). -/
theorem step_of_inputs_nil {s : State} (h : s.inputs = []) : step s = exec .nop s := by
  have hports : s.nextPorts = Ports.idle := by simp [State.nextPorts, h]
  have htail : s.inputs.tail = s.inputs := by rw [h, List.tail_nil]
  have htake : s.takeCycle = s := by rw [State.takeCycle, htail]
  rw [step, hports, htake]
  rfl

theorem resetValues_resetCycle (s : State) : ResetValues s.resetCycle :=
  { resetStateHasResetValues with }

/-- Settles O38: a presented operation is read back from its encoding by `decodeOfEncode`. -/
theorem stepRunsDecodedCycle : Obligations.StepRunsDecodedCycle := by
  refine ⟨fun s p => step_present p s, fun s i p hwf henc => ?_, fun s => step_of_inputs_nil⟩
  have hdec : decodeCycle p = i := by simpa [henc, decode] using decodeOfEncode s.build i hwf
  rw [step_present, hdec]

/-- Settles O3: with `rst` set the cycle decodes to RESET. -/
theorem resetOverridesStrobes : Obligations.ResetOverridesStrobes := by
  intro s p hrst
  have hstep : step (s.present p) = exec .reset s := by rw [step_present, decodeCycle_of_rst hrst]
  exact ⟨hstep, _, hstep.trans (exec_eq .reset s), resetValues_resetCycle s⟩

theorem SameReceive.of_eq {s t : State} (hfb : t.fb = s.fb) (hacc : t.acc = s.acc) : SameReceive s t where
  len := by rw [hfb]
  nbytes := by rw [hfb]
  lastTs := by rw [hfb]
  lastByte := by rw [hfb]
  acc := hacc
  cells := fun _ => by rw [hfb]

/-- Settles O4: the next state of NOP is the beginning of its cycle. -/
theorem nopOnlyEndsPulses : Obligations.NopOnlyEndsPulses :=
  fun s => ⟨s.beginCycle, exec_eq .nop s, rfl, .of_eq rfl rfl, rfl, rfl, rfl, rfl⟩

/-! ### The packing of `tx_frame` -/

/-- The packing of R62 for a frame of any length, of which the port holds the first sixteen bytes. -/
def packBytes (l : List Byte) : BitVec 128 := l.foldr (fun b acc => (acc <<< 8) ||| b.setWidth 128) 0

theorem packTx_eq (v : Vector Byte 16) : packTx v = packBytes v.toList := rfl

theorem packBytes_cons (b : Byte) (l : List Byte) : packBytes (b :: l) = (packBytes l <<< 8) ||| b.setWidth 128 := rfl

/-- The byte put in the low bits is read back there. -/
theorem extractLsb'_shiftLeft_or_low (x : BitVec 128) (b : Byte) :
    ((x <<< 8) ||| b.setWidth 128).extractLsb' 0 8 = b := by
  ext j hj
  have hbit : j < 128 := by omega
  simp [hj, hbit]

/-- The bytes already packed move up by one offset. -/
theorem extractLsb'_shiftLeft_or_high (x : BitVec 128) (b : Byte) {i : Nat} (h : i + 1 < 16) :
    ((x <<< 8) ||| b.setWidth 128).extractLsb' (8 * (i + 1)) 8 = x.extractLsb' (8 * i) 8 := by
  ext j hj
  have hbit : 8 * (i + 1) + j < 128 := by omega
  have hlow : b.getLsbD (8 * (i + 1) + j) = false := b.getLsbD_of_ge _ (by omega)
  have hsub : 8 * (i + 1) + j - 8 = 8 * i + j := by omega
  have hge : ¬ 8 * (i + 1) + j < 8 := by omega
  rw [BitVec.getElem_extractLsb', BitVec.getElem_extractLsb', BitVec.getLsbD_or, BitVec.getLsbD_shiftLeft,
    BitVec.getLsbD_setWidth, hlow, hsub]
  simp [hbit, hge]

theorem extractLsb'_packBytes (l : List Byte) {i : Nat} (h : i < 16) : (packBytes l).extractLsb' (8 * i) 8 = rd8 l i := by
  induction l generalizing i with
  | nil => simp [packBytes]
  | cons b l ih =>
    rw [packBytes_cons]
    cases i with
    | zero => exact extractLsb'_shiftLeft_or_low _ b
    | succ i => rw [extractLsb'_shiftLeft_or_high _ b h, ih (Nat.lt_of_succ_lt h), rd8_cons_succ]

/-- Settles O37: the port packs the list of the sixteen bytes. -/
theorem txPortPacking : Obligations.TxPortPacking := by
  intro v i hi
  rw [packTx_eq, extractLsb'_packBytes _ hi, rd8_of_lt (by simpa using hi), Vector.getElem_toList]

/-! ### The code tables -/

/-- Settles O34: `cmdCode` of each branch of CMD_MAP (R115). -/
theorem commandCodes : Obligations.CommandCodes := by
  intro b
  unfold cmdMap
  split_ifs <;> rfl

/-- Settles O35: `stateCode` of each branch of STATE_MAP (R119). -/
theorem stateCodes : Obligations.StateCodes := by
  intro b
  unfold stateMap
  split_ifs <;> rfl

/-- Settles O36: ten times a byte is at most ten times 255. -/
theorem percentNeverWraps : Obligations.PercentNeverWraps := by
  intro b
  have hb : b.toNat < 256 := b.isLt
  exact ⟨toNat_percentOf b, by rw [toNat_percentOf]; omega⟩

/-- The codes of DEC.TAG (R79). -/
theorem tagCode_iff (t : FrameTag) :
    (tagCode t = 0 ↔ t = .unknown) ∧ (tagCode t = 1 ↔ t = .short) ∧ (tagCode t = 2 ↔ t = .long) ∧ tagCode t ≠ 3 := by
  cases t <;> decide

/-- The codes of DEC.ERR (R150). -/
theorem errCode_iff (k : ErrKind) :
    (errCode k = 0 ↔ k = .noError) ∧ (errCode k = 1 ↔ k = .emptyFrame) ∧
      (errCode k = 2 ↔ k = .frameTooShortToClassify) ∧ (errCode k = 3 ↔ k = .unrecognizedFrameShape) ∧
      (errCode k = 4 ↔ k = .fieldOutOfRange) ∧ (errCode k = 5 ↔ k = .checksumMismatch) ∧ errCode k ≠ 6 ∧ errCode k ≠ 7 := by
  cases k <;> decide

/-- Settles O52: the ports show the codes of DEC.TAG and DEC.ERR. -/
theorem tagAndErrorCodes : Obligations.TagAndErrorCodes :=
  ⟨fun s => tagCode_iff s.dec.tag, fun s => errCode_iff s.dec.err⟩

end Sys2Proof.Machine

/-!
PROOFS. The statements of 40_checksum.md: the laws of the checksum (R93) and the accumulator form (R90).
-/

namespace Sys2Proof.Machine

/-! ### The laws of the checksum -/

/-- The low byte of a sum is the sum of the low bytes, so the 32-bit accumulator of R87 may be one of 8 bits. -/
theorem setWidth_sum32 (l : List Byte) : (sum32 l).setWidth 8 = l.foldl (fun t b => t + b) 0x00 := by
  have hstep : ∀ (s : BitVec 32) (b : Byte), s.setWidth 8 + b = (s + b.setWidth 32).setWidth 8 := fun s b => by
    rw [BitVec.setWidth_add _ _ (by decide), BitVec.setWidth_setWidth_of_le _ (by decide), BitVec.setWidth_eq]
  exact (List.foldl_hom (BitVec.setWidth 8) hstep).symm

theorem checksum_of_lt {F : List Byte} (h : F.length < 4) : checksum F = 0x00 := if_pos h

theorem checksum_of_ge {F : List Byte} (h : 4 ≤ F.length) :
    checksum F = (summedBytes F).foldl (fun t b => t + b) 0x00 :=
  (if_neg (Nat.not_lt.mpr h)).trans (setWidth_sum32 _)

/-- The last byte is never summed (R87). -/
theorem summedBytes_snoc (F : List Byte) (x : Byte) : summedBytes (F ++ [x]) = F.drop 2 := by
  simp [summedBytes]

/-- The checksum of a frame with its last byte apart: the sum, from offset 2, of the bytes before it. -/
theorem checksum_snoc (F : List Byte) (x : Byte) :
    checksum (F ++ [x]) = if F.length < 3 then 0x00 else sumFrom2 F := by
  have hlen : (F ++ [x]).length = F.length + 1 := List.length_append
  split
  · exact checksum_of_lt (by omega)
  · rw [checksum_of_ge (by omega), summedBytes_snoc, sumFrom2]

/-- Settles O32: the right side of `checksum_snoc` does not name the last byte, and `setWidth_sum32` makes the sum one of 8 bits. -/
theorem checksumLaws : Obligations.ChecksumLaws :=
  ⟨fun F x y => (checksum_snoc F x).trans (checksum_snoc F y).symm, fun _ => checksum_of_lt, fun _ => checksum_of_ge⟩

/-! ### The accumulator form -/

/-- The sum of all bytes from offset 2 on, less the last byte, is the checksum (R90). -/
theorem checksumAcc_sumFrom2 (F : List Byte) : checksumAcc F.length (sumFrom2 F) (F.getLastD 0x00) = checksum F := by
  rcases List.eq_nil_or_concat' F with rfl | ⟨G, b, rfl⟩
  · rfl
  · rw [getLastD_snoc, checksum_snoc, sumFrom2_snoc, checksumAcc, List.length_append, List.length_singleton]
    by_cases h : G.length < 3
    · rw [if_pos h, if_pos (by omega)]
    · rw [if_neg h, if_neg (by omega), accUpdate, if_pos (by omega), BitVec.add_sub_cancel]

/-- In a legal build the count is below 4 exactly when the frame is: it saturates only at 56 or more (R22). -/
theorem Holds.len_lt_four_iff {s : State} {F : List Byte} (h : Holds s F) (hb : s.build.Legal) :
    s.fb.len < 4 ↔ F.length < 4 := by
  refine h.len_lt_iff hb ?_
  obtain ⟨-, -, hmin, -⟩ := hb
  omega

/-- The block forms the checksum of the frame it holds, however long that is. -/
theorem Holds.checksumAcc_eq {s : State} {F : List Byte} (h : Holds s F) (hb : s.build.Legal) :
    checksumAcc s.fb.len s.acc s.fb.lastByte = checksum F := by
  rw [checksumAcc, if_congr (h.len_lt_four_iff hb) rfl rfl, h.accum, ← checksumAcc_sumFrom2, checksumAcc]
  split
  · rfl
  · next hlong => rw [h.final (List.ne_nil_of_length_pos (by omega))]

/-- Settles O27, by `Holds.checksumAcc_eq`, which states the form through its name. -/
theorem accumulatorIsChecksum : Obligations.AccumulatorIsChecksum :=
  fun _ _ hb h => ⟨h.checksumAcc_eq hb, h.len_lt_four_iff hb⟩

end Sys2Proof.Machine

/-!
PROOFS. The statements of 41_framer.md: RX_BYTE and POLL element by element (R97, R102), the modular clock (R101, R103), the POLL that
closes the buffer as DECODE of the whole frame received (R102, R107), and unbroken bursts of bytes (R105, R173).
-/

namespace Sys2Proof.Machine

/-! ### The modular clock -/

/-- The difference of two time-stamps on the TS_W-bit port is that of the readings, as integers, on the port. -/
theorem ofNat_sub_eq_ofInt (w now last : Nat) :
    BitVec.ofNat w now - BitVec.ofNat w last = BitVec.ofInt w ((now : Int) - last) := by
  rw [BitVec.sub_eq_add_neg, Int.sub_eq_add_neg, BitVec.ofInt_add, BitVec.ofInt_neg, BitVec.ofInt_natCast, BitVec.ofInt_natCast]

theorem elapsed_eq_emod (b : Build) (now last : Nat) :
    (elapsed b now last : Int) = ((now : Int) - last) % (2 ^ b.tsW : Nat) := by
  have hpos : ((2 ^ b.tsW : Nat) : Int) ≠ 0 := mod_cast (Nat.two_pow_pos b.tsW).ne'
  rw [elapsed, ofNat_sub_eq_ofInt, BitVec.toNat_ofInt, Int.toNat_of_nonneg (Int.emod_nonneg _ hpos)]

/-- Settles O22: the port's subtraction is the integer one, reduced. -/
theorem elapsedIsModular : Obligations.ElapsedIsModular :=
  fun b now last => ⟨elapsed_eq_emod b now last, BitVec.isLt _⟩

/-- FB.LAST_TS may stand for the time reading it was sampled from. -/
theorem elapsed_sampleTs (b : Build) (now last : Nat) : elapsed b now (sampleTs b last) = elapsed b now last := by
  zify
  rw [elapsed_eq_emod, elapsed_eq_emod, sampleTs, Int.natCast_mod, Int.sub_emod_emod]

/-- A time below 2^TS_W is measured as it is, across a wrap of the clock too. -/
theorem elapsed_add_left (b : Build) (t0 : Nat) {d : Nat} (h : d < 2 ^ b.tsW) : elapsed b (t0 + d) t0 = d := by
  zify
  rw [elapsed_eq_emod, Nat.cast_add, add_sub_cancel_left]
  exact mod_cast Nat.mod_eq_of_lt h

/-- Settles O23: the elapsed time is d. -/
theorem pollThresholdIsStrict : Obligations.PollThresholdIsStrict := by
  intro b len t0 d hd
  rw [closes_iff, elapsed_sampleTs, elapsed_add_left b t0 hd]

/-! ### RX_BYTE and POLL element by element -/

/-- Settles O5: the cell by the read after a write, each other element by the rule of its own. -/
theorem rxByteAppends : Obligations.RxByteAppends := by
  intro s b now enc
  have hfb : (nextState (.rxByte b now enc) s).fb = receiveFb s.build b now s.fb := encodeOpt_fb enc _
  obtain ⟨hdec, hsnap, hev⟩ := nextState_of_not_emitsFrame (i := .rxByte b now enc) (s := s) nofun rfl
  refine ⟨_, exec_eq _ s, ?_⟩
  rw [hfb, hev]
  refine ⟨fun hcell => ?_, fun a ha => ?_, encodeOpt_acc enc _, rfl, rfl, rfl, rfl, hdec, hsnap,
    ⟨nextState_build _ s, encodeOpt_inputs enc _⟩, rfl, rfl, rfl, rfl, rfl, rfl⟩
  · rw [receiveFb_buf, if_pos hcell, read_write_same]
  · rw [receiveFb_buf]
    split
    · next hcell => exact read_write_ne _ _ _ _ fun heq => ha ⟨heq, hcell⟩
    · rfl

theorem closes_eq_false_iff (b : Build) (len now last : Nat) :
    closes b len now last = false ↔ len = 0 ∨ elapsed b now last ≤ b.ibt := by
  rw [← Bool.not_eq_true, closes_iff, not_and_or, not_not, not_lt]

theorem pollAt_of_closes_eq_false {now : Nat} {s : State} (h : closes s.build s.fb.len now s.fb.lastTs = false) :
    s.pollAt now = s :=
  if_neg (by simp [h])

/-- Settles O7: the POLL does not close the buffer, so its cycle writes neither FB nor CS, and emits nothing. -/
theorem pollOtherwiseDoesNothing : Obligations.PollOtherwiseDoesNothing := by
  intro s now enc hquiet
  have hcloses : closes s.build s.fb.len now s.fb.lastTs = false := (closes_eq_false_iff _ _ _ _).mpr hquiet
  have hcycle : nextState (.poll now none enc) s = s.beginCycle.encodeOpt enc :=
    congrArg (State.encodeOpt enc) (pollAt_of_closes_eq_false (s := s.beginCycle) hcloses)
  obtain ⟨hdec, hsnap, hev⟩ := nextState_of_not_emitsFrame (i := .poll now none enc) nofun hcloses
  refine ⟨_, exec_eq _ s, ?_, ⟨nextState_build _ s, by simp [hcycle]⟩, hdec, hsnap, ?_⟩
  · exact .of_eq (by simp [hcycle]) (by simp [hcycle])
  · rw [hev]
    exact ⟨rfl, rfl, rfl⟩

/-! ### The frame handed to DECODE -/

/-- A legal build counts past the length of a Long frame: its largest count is at least 56 and one less than a power of two. -/
theorem longLen_lt_lenMax_of_legal {b : Build} (h : b.Legal) : Config.longLen < b.lenMax := by
  obtain ⟨-, -, hmin, hdepth⟩ := h
  have hpow : 2 ^ 5 < 2 ^ b.lenW := by
    unfold Build.lenMax at hdepth
    omega
  have hwidth : 5 < b.lenW := (Nat.pow_lt_pow_iff_right Nat.one_lt_two).mp hpow
  have hpow' : 2 ^ 6 ≤ 2 ^ b.lenW := Nat.pow_le_pow_right Nat.two_pos hwidth
  unfold Build.lenMax Config.longLen
  omega

/-- A frame that fits the buffer is seen by DECODE as it was received. -/
theorem Holds.heldView_eq {s : State} {F : List Byte} (h : Holds s F) (hb : s.build.Legal) (hne : F ≠ [])
    (hfit : F.length ≤ s.build.bufDepth) : s.heldView = FrameView.ofBytes F := by
  have ⟨_, _, _, hdepth⟩ := hb
  have hlen : s.fb.len = F.length := h.count.trans (min_eq_left (hfit.trans hdepth))
  have hstored : s.storedBytes = F := h.storedBytes_eq (hlen ▸ hfit) (h.ghost.trans hlen.symm)
  rw [State.heldView, FrameView.ofBytes, h.checksumAcc_eq hb, hlen, hstored, h.final hne]

/-- A frame longer than a Long one is of no recognised shape, from its count alone (R112). -/
theorem decodeView_of_longLen_lt {b : Build} {v : FrameView} (h : Config.longLen < v.n) :
    decodeView b v = .unknown (min v.n b.lenMax) .unrecognizedFrameShape := by
  unfold Config.longLen at h
  have hc : classify v.n (rd8 v.stored 3) = .unknown := by
    by_contra hknown
    rcases classify_ne_unknown hknown with hn | hn <;> simp [Config.shortLen, Config.longLen] at hn <;> omega
  rw [decodeView, if_neg (by omega), if_neg (by omega), hc]

/-- DECODE answers of the view the block can give what it answers of the whole frame received (R107, R112). -/
theorem Holds.decodeView_heldView {s : State} {F : List Byte} (h : Holds s F) (hb : s.build.Legal) (hne : F ≠ []) :
    decodeView s.build s.heldView = decodeView s.build (FrameView.ofBytes F) := by
  rcases Nat.lt_or_ge s.build.bufDepth F.length with hover | hfit
  · have ⟨_, _, hmin, _⟩ := hb
    have hlong : Config.longLen < F.length := lt_of_le_of_lt hmin hover
    have hcount : Config.longLen < s.heldView.n :=
      lt_of_lt_of_eq (lt_min hlong (longLen_lt_lenMax_of_legal hb)) h.count.symm
    have hreport : min s.heldView.n s.build.lenMax = min F.length s.build.lenMax :=
      (congrArg (min · s.build.lenMax) h.count).trans (min_eq_left (min_le_right _ _))
    rw [decodeView_of_longLen_lt hcount, hreport]
    exact (decodeView_of_longLen_lt (v := FrameView.ofBytes F) hlong).symm
  · rw [h.heldView_eq hb hne hfit]

/-- The emission reads of a view no more than what DECODE answers, the two checksum values and the checksum bit. -/
theorem emit_congr {s : State} {v w : FrameView} (hd : decodeView s.build v = decodeView s.build w)
    (hcalc : v.csCalc = w.csCalc) (hrx : v.csRx = w.csRx)
    (hok : csumOkFlag v.n v.csCalc v.csRx = csumOkFlag w.n w.csCalc w.csRx) : s.emit v = s.emit w := by
  unfold State.emit State.writeDec
  rw [hd, hok, hcalc, hrx]

/-- The block emits of its view of the frame held what the source's framer does of the whole frame (R102). -/
theorem Holds.emit_heldView {s : State} {F : List Byte} (h : Holds s F) (hb : s.build.Legal) (hne : F ≠ []) :
    s.emit s.heldView = s.emit (FrameView.ofBytes F) := by
  have hcalc : s.heldView.csCalc = checksum F := h.checksumAcc_eq hb
  have hrx : s.heldView.csRx = F.getLastD 0x00 := h.final hne
  have hfour : 4 ≤ s.heldView.n ↔ 4 ≤ F.length := by
    rw [← Nat.not_lt, ← Nat.not_lt]
    exact (h.len_lt_four_iff hb).not
  refine emit_congr (h.decodeView_heldView hb hne) hcalc hrx ?_
  rw [csumOkFlag, hcalc, hrx, decide_eq_decide.mpr hfour]
  rfl

/-- The wire row of a frame is the cycle that emits exactly its bytes, whatever its class. -/
theorem nextState_decodeWire (F : List Byte) (s : State) :
    nextState (decodeWire F) s = s.beginCycle.emit (FrameView.ofBytes F) := by
  rcases decodeWire_cases F with ⟨hlf, hlen, hrow⟩ | ⟨hlf, hlen, hrow⟩ | ⟨-, -, hrow⟩
  · rw [hrow, nextState, shortWire_bytes_ofBytes hlf hlen]
  · rw [hrow, nextState, longWire_bytes_ofBytes hlf hlen]
  · rw [hrow, nextState]

/-- A POLL that closes the buffer is the wire row of the frame held. -/
theorem nextState_poll_eq_decodeWire {s : State} {F : List Byte} (h : Holds s F) (hb : s.build.Legal) {now : Nat}
    (hcloses : closes s.build s.fb.len now s.fb.lastTs = true) :
    nextState (.poll now none none) s = nextState (decodeWire F) s := by
  have hne : F ≠ [] := by
    rintro rfl
    exact ((closes_iff _ _ _ _).mp hcloses).1 (by simp [h.count])
  calc nextState (.poll now none none) s
      = s.beginCycle.emit s.beginCycle.heldView := pollAt_of_closes (s := s.beginCycle) hcloses
    _ = s.beginCycle.emit (FrameView.ofBytes F) := h.beginCycle.emit_heldView hb hne
    _ = nextState (decodeWire F) s := (nextState_decodeWire F s).symm

/-- Settles O28: the POLL is the wire row, and an emission leaves no byte. -/
theorem pollDecodesHeldFrame : Obligations.PollDecodesHeldFrame := by
  intro s F now hb h hcloses
  have hrow := nextState_poll_eq_decodeWire h hb hcloses
  refine ⟨by rw [exec_eq, exec_eq, hrow], _, exec_eq _ s, ?_⟩
  rw [hrow, nextState_decodeWire]
  exact holds_emit _ _

/-! ### Unbroken bursts -/

/-- The time of the last byte after an instruction, when it was `last` before: the reading FB.LAST_TS is sampled from (R24). -/
def lastAfter (last : Nat) : Instr → Nat
  | .rxByte _ now _ => now
  | .poll now (some _) _ => now
  | _ => last

@[simp] theorem pollAt_lastTs (now : Nat) (s : State) : (s.pollAt now).fb.lastTs = s.fb.lastTs := by
  rcases pollAt_cases now s with ⟨-, hp⟩ | ⟨-, hp⟩ <;> simp [hp]

/-- FB.LAST_TS follows the bytes received; only RESET clears it (R24). -/
theorem nextState_lastTs {i : Instr} {s : State} {last : Nat} (hi : i ≠ .reset)
    (hlast : s.fb.lastTs = sampleTs s.build last) :
    (nextState i s).fb.lastTs = sampleTs s.build (lastAfter last i) := by
  cases i with
  | poll now rx enc => cases rx <;> simp [nextState, lastAfter, hlast]
  | reset => exact absurd rfl hi
  | _ => simp [nextState, lastAfter, hlast]

/-- What does not write DEC keeps the frame held and adds the byte it receives. -/
theorem heldAfter_of_writesDec_eq_false {s : State} {i : Instr} (F : List Byte) (h : writesDec s i = false) :
    heldAfter s F i = F ++ received i := by
  cases i with
  | nop => simp [heldAfter, received]
  | rxByte b now enc => rfl
  | poll now rx enc =>
    have hcloses : closes s.build s.fb.len now s.fb.lastTs = false := h
    simp [heldAfter, received, hcloses]
  | encodeShort a => simp [heldAfter, received]
  | reset => cases h
  | shortFrame w => cases h
  | longFrame w => cases h
  | unknownFrame bytes => cases h

/-- The first instruction of an unbroken list emits nothing, its POLL coming within IBT, and the rest is unbroken after it. -/
theorem unbroken_cons {s : State} {last : Nat} {i : Instr} {l : List Instr}
    (hlast : s.fb.lastTs = sampleTs s.build last) (h : unbroken s.build last (i :: l)) :
    writesDec s i = false ∧ unbroken s.build (lastAfter last i) l := by
  have hquiet : ∀ now, elapsed s.build now last ≤ s.build.ibt → closes s.build s.fb.len now s.fb.lastTs = false :=
    fun now hnow => (closes_eq_false_iff _ _ _ _).mpr (.inr (by rwa [hlast, elapsed_sampleTs]))
  cases i with
  | nop => exact ⟨rfl, h⟩
  | rxByte b now enc => exact ⟨rfl, h.2⟩
  | poll now rx enc => cases rx <;> exact ⟨hquiet now h.1, h.2⟩
  | encodeShort a => exact ⟨rfl, h⟩
  | reset => exact h.elim
  | shortFrame w => exact h.elim
  | longFrame w => exact h.elim
  | unknownFrame bytes => exact h.elim

/-- The instructions emit no frame and append what they receive to the frame F, with DEC and SNAP as before. -/
def AppendsAll (s : State) (F : List Byte) (l : List Instr) : Prop :=
  emitsNothing l s ∧
  ∃ t, runAll l s = some t ∧ Holds t (F ++ l.flatMap received) ∧ t.dec = s.dec ∧ t.snap = s.snap ∧ t.ev.frameValid = false

theorem appendsAll_nil {s : State} {F : List Byte} (h : Holds s F) (hframe : s.ev.frameValid = false) : AppendsAll s F [] :=
  ⟨trivial, s, rfl, by simpa using h, rfl, rfl, hframe⟩

theorem appendsAll_cons {s : State} {F : List Byte} {i : Instr} {l : List Instr} (hwrites : writesDec s i = false)
    (hl : AppendsAll (nextState i s) (F ++ received i) l) : AppendsAll s F (i :: l) := by
  obtain ⟨hi, he⟩ := notEmits_of_writesDec_eq_false hwrites
  obtain ⟨hdec, hsnap, -⟩ := nextState_of_not_emitsFrame hi he
  obtain ⟨hnothing, t, hrun, hheld, hdec', hsnap', hframe⟩ := hl
  refine ⟨⟨hwrites, fun u hu => ?_⟩, t, (runAll_cons i l s).trans hrun, ?_, hdec'.trans hdec, hsnap'.trans hsnap, hframe⟩
  · rwa [(exec_next_iff i s u).mp hu]
  · rwa [List.flatMap_cons, ← List.append_assoc]

/-- After a cycle that emits nothing the block holds the byte received too, and no frame pulse stands. -/
theorem holds_nextState_of_writesDec_eq_false {s : State} {F : List Byte} {i : Instr} (h : Holds s F) (hb : s.build.Legal)
    (hwrites : writesDec s i = false) :
    Holds (nextState i s) (F ++ received i) ∧ (nextState i s).ev.frameValid = false := by
  obtain ⟨hi, he⟩ := notEmits_of_writesDec_eq_false hwrites
  obtain ⟨-, -, hev⟩ := nextState_of_not_emitsFrame hi he
  exact ⟨heldAfter_of_writesDec_eq_false F hwrites ▸ h.nextState hb i, by rw [hev]; rfl⟩

/-- An unbroken list of instructions emits nothing, and its bytes are appended to the frame held (R105). -/
theorem appendsAll_of_unbroken (l : List Instr) {s : State} {F : List Byte} {last : Nat} (h : Holds s F)
    (hframe : s.ev.frameValid = false) (hb : s.build.Legal) (hlast : s.fb.lastTs = sampleTs s.build last)
    (hl : unbroken s.build last l) : AppendsAll s F l := by
  induction l generalizing s F last with
  | nil => exact appendsAll_nil h hframe
  | cons i l ih =>
    obtain ⟨hwrites, hrest⟩ := unbroken_cons hlast hl
    obtain ⟨hi, -⟩ := notEmits_of_writesDec_eq_false hwrites
    obtain ⟨hheld, hframe'⟩ := holds_nextState_of_writesDec_eq_false h hb hwrites
    have hbuild := nextState_build i s
    exact appendsAll_cons hwrites (ih hheld hframe' (hbuild ▸ hb) (hbuild ▸ nextState_lastTs hi hlast) (hbuild ▸ hrest))

/-- Settles O30: the first byte sets FB.LAST_TS, and the cycles after it are unbroken from there. -/
theorem burstIsOneFrame : Obligations.BurstIsOneFrame := by
  intro s x t0 enc l hb h hl
  have hwrites : writesDec s (.rxByte x t0 enc) = false := rfl
  obtain ⟨hheld, hframe⟩ := holds_nextState_of_writesDec_eq_false h hb hwrites
  have hbuild := nextState_build (.rxByte x t0 enc) s
  have hlast : (nextState (.rxByte x t0 enc) s).fb.lastTs = sampleTs s.build t0 := congrArg FB.lastTs (encodeOpt_fb enc _)
  exact appendsAll_cons hwrites
    (appendsAll_of_unbroken l hheld hframe (hbuild ▸ hb) (hbuild ▸ hlast) (hbuild ▸ hl))

end Sys2Proof.Machine

/-!
PROOFS. The statements of 42_decoder.md: DECODE of each class of frame with its write-back (R107 to R122), the frame longer than the
buffer (R112), the round trip of an encoded frame (R124), and the error kinds that are never reported (R108, R123).
-/

namespace Sys2Proof.Machine

/-! ### The status bits -/

theorem warnFlag_iff (k : ErrKind) : warnFlag k = true ↔ k ≠ .noError := decide_eq_true_iff

theorem csumOkFlag_iff (n : Nat) (computed rx : Byte) : csumOkFlag n computed rx = true ↔ 4 ≤ n ∧ rx = computed := by
  rw [csumOkFlag, Bool.and_eq_true, decide_eq_true_iff, decide_eq_true_iff, eq_comm (a := rx)]

theorem mismatchFlag_iff (b : Build) (computed rx : Byte) :
    mismatchFlag b computed rx = true ↔ b.verifyCsum = true ∧ rx ≠ computed := by
  rw [mismatchFlag, Bool.and_eq_true, decide_eq_true_iff, ne_comm]

theorem mismatchFlag_eq_false_iff (b : Build) (computed rx : Byte) :
    mismatchFlag b computed rx = false ↔ b.verifyCsum = false ∨ rx = computed := by
  rw [← Bool.not_eq_true, mismatchFlag_iff, not_and_or, Bool.not_eq_true, not_not]

/-! ### DECODE, one equation per outcome -/

theorem decodeView_of_class_unknown {b : Build} {v : FrameView} (hne : v.n ≠ 0)
    (hc : classify v.n (rd8 v.stored 3) = .unknown) :
    decodeView b v = .unknown (min v.n b.lenMax) (if v.n ≤ 3 then .frameTooShortToClassify else .unrecognizedFrameShape) := by
  rw [decodeView, if_neg hne, hc]
  split <;> rfl

theorem decodeView_of_mismatch {b : Build} {v : FrameView} (hc : classify v.n (rd8 v.stored 3) ≠ .unknown)
    (hm : mismatchFlag b v.csCalc v.csRx = true) : decodeView b v = .unknown (min v.n b.lenMax) .checksumMismatch := by
  have hlong : 3 < v.n := by rcases classify_ne_unknown hc with hn | hn <;> rw [hn] <;> decide
  rw [decodeView, if_neg (by omega), if_neg (by omega), if_pos hm, if_pos hm]
  split
  · next hclass => exact absurd hclass hc
  · rfl
  · rfl

theorem decodeView_of_class_short {b : Build} {v : FrameView} (hc : classify v.n (rd8 v.stored 3) = .short)
    (hm : mismatchFlag b v.csCalc v.csRx = false) : decodeView b v = .short (shortFields v.stored) := by
  have hn : v.n = 16 := ((classify_short _ _).mp hc).2
  simp [decodeView, hm, hn, hn ▸ hc]

theorem decodeView_of_class_long {b : Build} {v : FrameView} (hc : classify v.n (rd8 v.stored 3) = .long)
    (hm : mismatchFlag b v.csCalc v.csRx = false) : decodeView b v = .long (longFields v.stored) := by
  have hn : v.n = 56 := ((classify_long _ _).mp hc).2
  simp [decodeView, hm, hn, hn ▸ hc]

/-- A frame of neither shape has the class Unknown (R72). -/
theorem classify_of_not_knownShape {F : List Byte} (h : knownShape F = false) : classify F.length (rd8 F 3) = .unknown :=
  not_not.mp ((knownShape_iff F).not.mp (Bool.not_eq_true _ ▸ h))

/-- DECODE reports EmptyFrame of the empty frame only (R108). -/
theorem decodeView_err_ne_emptyFrame {b : Build} {v : FrameView} (h : v.n ≠ 0) : (decodeView b v).err ≠ .emptyFrame := by
  rcases decodeView_cases b v with ⟨h0, -⟩ | ⟨-, -, e⟩ | ⟨-, -, e⟩ | ⟨-, -, -, e⟩ | ⟨-, -, -, e⟩ | ⟨-, -, -, e⟩
  · exact absurd h0 h
  all_goals
    rw [e]
    nofun

/-! ### The emission, element by element -/

theorem emit_dec_len (v : FrameView) (s : State) : (s.emit v).dec.len = (decodeView s.build v).len := by
  simp [State.writeDec]
theorem emit_dec_csumRx (v : FrameView) (s : State) : (s.emit v).dec.csumRx = v.csRx := by
  simp [State.writeDec]
theorem emit_dec_csumCalc (v : FrameView) (s : State) : (s.emit v).dec.csumCalc = v.csCalc := by
  simp [State.writeDec]
theorem emit_dec_csumOk (v : FrameView) (s : State) : (s.emit v).dec.csumOk = csumOkFlag v.n v.csCalc v.csRx := by
  simp [State.writeDec]

theorem emit_shortFields_of_short {v : FrameView} {s : State} {f : ShortFields} (h : decodeView s.build v = .short f) :
    (s.emit v).dec.sPowerPct = f.powerPct ∧ (s.emit v).dec.sCmd = f.cmd := by
  rw [emit_short h]
  exact ⟨rfl, rfl⟩

theorem emit_shortFields_of_tag_ne {v : FrameView} {s : State} (h : (s.emit v).dec.tag ≠ .short) :
    (s.emit v).dec.sPowerPct = s.dec.sPowerPct ∧ (s.emit v).dec.sCmd = s.dec.sCmd := by
  rcases emit_shortFields_cases v s with ⟨f, hd, -⟩ | ⟨-, hpower, hcmd, -⟩
  · exact absurd (by rw [emit_dec_tag, hd]; rfl) h
  · exact ⟨hpower, hcmd⟩

theorem emit_snap_of_long {v : FrameView} {s : State} {f : SNAP} (h : decodeView s.build v = .long f) : (s.emit v).snap = f := by
  rw [emit_long h]

theorem emit_snap_of_tag_ne {v : FrameView} {s : State} (h : (s.emit v).dec.tag ≠ .long) : (s.emit v).snap = s.snap := by
  rcases emit_snap_cases v s with ⟨f, hd, -⟩ | ⟨-, hsnap⟩
  · exact absurd (by rw [emit_dec_tag, hd]; rfl) h
  · exact hsnap

theorem BufferClosed.of_eq {s t : State} (hfb : t.fb = { s.fb with len := 0, nbytes := 0 }) (hacc : t.acc = 0x00) :
    BufferClosed s t where
  len := by rw [hfb]
  nbytes := by rw [hfb]
  acc := hacc
  lastTs := by rw [hfb]
  lastByte := by rw [hfb]
  cells := fun _ => by rw [hfb]

/-! ### POLL -/

theorem nextState_poll_eq_emit {s : State} {now : Nat} (rx : Option Byte) (enc : Option EncArgs)
    (h : closes s.build s.fb.len now s.fb.lastTs = true) :
    nextState (.poll now rx enc) s = ((s.beginCycle.emit s.heldView).receiveOpt rx now).encodeOpt enc := by
  have hpoll : s.beginCycle.pollAt now = s.beginCycle.emit s.heldView := pollAt_of_closes h
  rw [nextState, hpoll]

/-- Settles O6: the POLL closes the buffer, and each element is that of the emission of the view held. -/
theorem pollEmitsAfterSilence : Obligations.PollEmitsAfterSilence := by
  intro s now enc hlen hsilence
  have hnext := nextState_poll_eq_emit none enc ((closes_iff _ _ _ _).mpr ⟨hlen, hsilence⟩)
  refine ⟨_, exec_eq _ s, ?_⟩
  simp only [hnext, receiveOpt_none, encodeOpt_dec, encodeOpt_snap, encodeOpt_ev]
  refine ⟨.of_eq (by simp) (by simp), ⟨by simp, by simp⟩, emit_dec_valid _ _, emit_dec_tag _ _, emit_dec_len _ _,
    emit_dec_err _ _, emit_dec_csumRx _ _, emit_dec_csumCalc _ _, ?_, fun f => emit_shortFields_of_short (s := s.beginCycle),
    emit_shortFields_of_tag_ne, fun f => emit_snap_of_long (s := s.beginCycle), emit_snap_of_tag_ne, by simp, ?_, by simp⟩
  · rw [emit_dec_csumOk, emit_dec_csumCalc, emit_dec_csumRx, csumOkFlag_iff, eq_comm (a := s.heldView.csRx)]
    rfl
  · rw [emit_dec_err, emit_ev]
    exact warnFlag_iff _

/-- Settles O51: DECODE of the empty frame by evaluation; a POLL that emits has a byte to show, and another leaves DEC. -/
theorem emptyFrameOfDecodeAlone : Obligations.EmptyFrameOfDecodeAlone := by
  refine ⟨fun b => ⟨rfl, rfl⟩, fun s now rx enc => ⟨_, exec_eq _ s, ?_⟩⟩
  cases hcloses : closes s.build s.fb.len now s.fb.lastTs with
  | false =>
    obtain ⟨hdec, -, hev⟩ := nextState_of_not_emitsFrame (i := .poll now rx enc) nofun hcloses
    exact ⟨fun _ => ⟨by rw [hev]; rfl, hdec⟩, fun herr => hdec ▸ herr⟩
  | true =>
    have hlen : s.fb.len ≠ 0 := ((closes_iff _ _ _ _).mp hcloses).1
    refine ⟨fun h => absurd h hlen, fun herr => absurd herr ?_⟩
    rw [nextState_poll_eq_emit rx enc hcloses, encodeOpt_dec, receiveOpt_dec, emit_dec_err]
    exact decodeView_err_ne_emptyFrame hlen

/-! ### The classes of frames -/

/-- Settles O12: with no mismatch the frame is decoded as Short, and each element is that of its emission. -/
theorem shortFrameDecodes : Obligations.ShortFrameDecodes := by
  intro s w hcsum
  have hd : decodeView s.beginCycle.build (FrameView.ofBytes w.bytes) = .short (shortFields w.bytes) := by
    rw [decodeView_shortBytes, beginCycle_build, (mismatchFlag_eq_false_iff _ _ _).mpr hcsum, if_neg Bool.false_ne_true]
  refine ⟨_, exec_eq _ s, ?_⟩
  rw [nextState, emit_short hd]
  refine ⟨rfl, rfl, rfl, rfl, toNat_percentOf _, rfl, rfl, rfl, ?_, rfl, .of_eq rfl rfl, ⟨rfl, rfl⟩, rfl⟩
  exact (csumOkFlag_iff 16 (checksum w.bytes) w.csum).trans (and_iff_right (by decide))

/-- The snapshot the fields of a Long frame give (R118, R122). -/
def longSnapshot (w : LongWire) : SNAP :=
  { valid := true, opState := stateMap w.opState, heaterEn := w.heaterEn, powerPct := percentOf w.power, vinRaw := w.vin,
    gpCurrent := w.gpCurrent, cooling := w.cooling, fanVRaw := w.fanV, hxTempRaw := w.hxTemp, stateDur := w.stateDur,
    pumpRaw := w.pump, gpVoltage := w.gpVoltage, gpCurrent2 := w.gpCurrent2, gpTemp := w.gpTemp, rsvd27 := w.rsvd27,
    fanRpm := w.fanRpm, rsvd52 := w.rsvd52, csumRx := w.csum }

/-- LONG_FIELDS reads of a frame what its layout carries. -/
theorem longFields_eq_longSnapshot (F : List Byte) : longFields F = longSnapshot (LongWire.ofBytes F) := rfl

/-- Settles O13: with no mismatch the frame is decoded as Long, and its fields are those it was written from. -/
theorem longFrameDecodes : Obligations.LongFrameDecodes := by
  intro s w h7 h30 hcsum
  have hlast : (FrameView.ofBytes w.bytes).csRx = w.csum := longBytes_last w
  have hcount : (FrameView.ofBytes w.bytes).n = 56 := longBytes_length w h7 h30
  have hd : decodeView s.beginCycle.build (FrameView.ofBytes w.bytes) = .long (longSnapshot w) := by
    rw [decodeView_longBytes _ w h7 h30, beginCycle_build, (mismatchFlag_eq_false_iff _ _ _).mpr hcsum,
      if_neg Bool.false_ne_true, longFields_eq_longSnapshot, longWire_ofBytes_bytes w h7 h30]
  refine ⟨_, exec_eq _ s, ?_⟩
  rw [nextState, emit_long hd]
  refine ⟨rfl, rfl, rfl, toNat_percentOf _, rfl, rfl, rfl, rfl, rfl, rfl, rfl, rfl, rfl, rfl, rfl, rfl, rfl, rfl, rfl, rfl, rfl,
    rfl, hlast, rfl, ?_, rfl, rfl, rfl, .of_eq rfl rfl, ⟨rfl, rfl⟩, rfl⟩
  rw [hlast, hcount, csumOkFlag_iff]
  exact and_iff_right (by decide)

/-- Settles O14: the frame has the class Unknown, and no element of a field is written. -/
theorem unknownFrameDecodes : Obligations.UnknownFrameDecodes := by
  intro s F hne hshape
  have hpos : (FrameView.ofBytes F).n ≠ 0 := (List.length_pos_of_ne_nil hne).ne'
  have hd := decodeView_of_class_unknown (b := s.beginCycle.build) hpos (classify_of_not_knownShape hshape)
  refine ⟨_, exec_eq _ s, ?_⟩
  rw [nextState, emit_unknown hd (decodeView_unknown_err hd)]
  refine ⟨rfl, rfl, rfl, fun hb h3 => min_eq_left (h3.trans ?_), rfl, rfl, rfl, csumOkFlag_iff _ _ _, rfl, rfl, rfl, rfl,
    .of_eq rfl rfl, ⟨rfl, rfl⟩, rfl⟩
  exact (by decide : 3 ≤ Config.longLen).trans (longLen_lt_lenMax_of_legal hb).le

/-! ### The verification of the checksum -/

/-- A frame of neither shape is Unknown for its shape, never for its checksum (R113). -/
theorem decodeView_of_not_knownShape {F : List Byte} (b : Build) (h : knownShape F = false) :
    (decodeView b (FrameView.ofBytes F)).tag = .unknown ∧ (decodeView b (FrameView.ofBytes F)).err ≠ .checksumMismatch := by
  rcases eq_or_ne F [] with rfl | hne
  · exact ⟨rfl, nofun⟩
  · rw [decodeView_of_class_unknown (List.length_pos_of_ne_nil hne).ne' (classify_of_not_knownShape h)]
    refine ⟨rfl, ?_⟩
    dsimp only [DecodedFrame.err]
    split <;> nofun

/-- A frame of either shape that passes for its checksum is decoded by its length. -/
theorem decodeView_of_knownShape {b : Build} {F : List Byte} (h : knownShape F = true)
    (hm : mismatchFlag b (checksum F) (F.getLastD 0x00) = false) :
    (F.length = 16 ∧ decodeView b (FrameView.ofBytes F) = .short (shortFields F)) ∨
    (F.length = 56 ∧ decodeView b (FrameView.ofBytes F) = .long (longFields F)) := by
  cases hc : classify F.length (rd8 F 3) with
  | short => exact .inl ⟨((classify_short _ _).mp hc).2, decodeView_of_class_short hc hm⟩
  | long => exact .inr ⟨((classify_long _ _).mp hc).2, decodeView_of_class_long hc hm⟩
  | unknown => exact absurd hc ((knownShape_iff F).mp h)

/-- A frame of either shape is short enough for the counter of a legal build. -/
theorem length_le_lenMax_of_knownShape {b : Build} {F : List Byte} (hb : b.Legal) (h : knownShape F = true) :
    F.length ≤ b.lenMax := by
  have hmax : 56 < b.lenMax := longLen_lt_lenMax_of_legal hb
  rcases classify_ne_unknown ((knownShape_iff F).mp h) with hn | hn <;> rw [hn]
  · exact (by decide : Config.shortLen ≤ 56).trans hmax.le
  · exact hmax.le

/-- Settles O15: a verified mismatch is one outcome of DECODE, and without verification there is none. -/
theorem wrongChecksumIsMismatch : Obligations.WrongChecksumIsMismatch := by
  constructor
  · intro s F hshape
    obtain ⟨htag, herr⟩ := decodeView_of_not_knownShape s.build hshape
    refine ⟨_, exec_eq _ s, ?_⟩
    rw [nextState_decodeWire, emit_dec_tag, emit_dec_err]
    exact ⟨htag, herr⟩
  · intro s F hb hshape hcsum
    refine ⟨_, exec_eq _ s, fun hverify => ?_, fun hverify => ?_⟩ <;> rw [nextState_decodeWire]
    · have hm : mismatchFlag s.build (checksum F) (F.getLastD 0x00) = true := (mismatchFlag_iff _ _ _).mpr ⟨hverify, hcsum⟩
      have hd : decodeView s.beginCycle.build (FrameView.ofBytes F) = .unknown (min F.length s.build.lenMax) .checksumMismatch :=
        decodeView_of_mismatch ((knownShape_iff F).mp hshape) hm
      rw [emit_unknown hd nofun]
      exact ⟨rfl, rfl, min_eq_left (length_le_lenMax_of_knownShape hb hshape), (csumOkFlag_of_mismatch hm).2, rfl, rfl, rfl, rfl,
        rfl, rfl, rfl⟩
    · have hm : mismatchFlag s.build (checksum F) (F.getLastD 0x00) = false :=
        (mismatchFlag_eq_false_iff _ _ _).mpr (.inl hverify)
      rcases decodeView_of_knownShape (b := s.beginCycle.build) hshape hm with ⟨hlen, hd⟩ | ⟨hlen, hd⟩
      · rw [emit_short hd, hlen]
        exact ⟨rfl, fun _ => ⟨rfl, rfl, rfl⟩, nofun, rfl⟩
      · rw [emit_long hd, hlen]
        exact ⟨rfl, nofun, fun _ => ⟨rfl, rfl⟩, rfl⟩

/-! ### The header -/

/-- The checksum reads no byte below offset 2 (R87). -/
theorem checksum_congr {F G : List Byte} (hlen : F.length = G.length) (h : ∀ i, 2 ≤ i → rd8 F i = rd8 G i) :
    checksum F = checksum G := by
  have hdrop : F.drop 2 = G.drop 2 := by
    refine ext_rd8 (by simp [hlen]) fun i _ => ?_
    simpa [rd8] using h (2 + i) (Nat.le_add_right 2 i)
  simp only [checksum, summedBytes, List.drop_take, hdrop, hlen]

/-- From four bytes on the last byte is no header byte. -/
theorem getLastD_congr {F G : List Byte} (hlen : F.length = G.length) (hlong : 3 < F.length)
    (h : ∀ i, 3 ≤ i → rd8 F i = rd8 G i) : F.getLastD 0x00 = G.getLastD 0x00 := by
  rw [getLastD_eq_rd8 (List.ne_nil_of_length_pos (by omega)), getLastD_eq_rd8 (List.ne_nil_of_length_pos (by omega)), ← hlen]
  exact h _ (by omega)

theorem mismatchFlag_congr {b : Build} {F G : List Byte} (hcsum : b.verifyCsum = false ∨ rd8 F 2 = rd8 G 2)
    (hlen : F.length = G.length) (hlong : 3 < F.length) (h : ∀ i, 3 ≤ i → rd8 F i = rd8 G i) :
    mismatchFlag b (checksum F) (F.getLastD 0x00) = mismatchFlag b (checksum G) (G.getLastD 0x00) := by
  rcases hcsum with hverify | htwo
  · simp [mismatchFlag, hverify]
  · have hfrom2 : ∀ i, 2 ≤ i → rd8 F i = rd8 G i := fun i hi =>
      (Nat.lt_or_eq_of_le hi).elim (h i) fun heq => heq ▸ htwo
    rw [checksum_congr hlen hfrom2, getLastD_congr hlen hlong h]

theorem shortFields_congr {F G : List Byte} (h : ∀ i, 3 ≤ i → rd8 F i = rd8 G i) : shortFields F = shortFields G := by
  simp [shortFields, h]

theorem longFields_congr {F G : List Byte} (hlen : F.length = G.length) (h : ∀ i, 3 ≤ i → rd8 F i = rd8 G i) :
    longFields F = longFields G := by
  simp [longFields, rd16be, hlen, h]

/-- DECODE reads of a frame its count and, from four bytes on, its length field, its checksum verdict and its fields. -/
theorem decodeView_congr {b : Build} {v w : FrameView} (hn : v.n = w.n) (hlf : rd8 v.stored 3 = rd8 w.stored 3)
    (hm : 3 < v.n → mismatchFlag b v.csCalc v.csRx = mismatchFlag b w.csCalc w.csRx)
    (hshort : shortFields v.stored = shortFields w.stored) (hlong : longFields v.stored = longFields w.stored) :
    decodeView b v = decodeView b w := by
  rcases Nat.lt_or_ge 3 v.n with h4 | h3
  · rw [decodeView, decodeView, hlf, hm h4, hshort, hlong, hn]
  · have h3' : w.n ≤ 3 := hn ▸ h3
    simp [decodeView, hn, h3']

/-- Settles O16: class, mismatch and fields are read from offset 3 on, the checksum from offset 2 on. -/
theorem headerBytesNotChecked : Obligations.HeaderBytesNotChecked := by
  constructor
  · intro b F G hcsum hlen h
    exact decodeView_congr hlen (h 3 le_rfl) (fun hlong => mismatchFlag_congr hcsum hlen hlong h) (shortFields_congr h)
      (longFields_congr hlen h)
  · intro b F hverify hlen
    have hcount : (FrameView.ofBytes ([0x00, 0x00, 0x00, 0x0B] ++ F)).n = 16 := by simp [FrameView.ofBytes, hlen]
    rw [decodeView_of_class_short ((classify_short _ _).mpr ⟨rfl, hcount⟩)
      ((mismatchFlag_eq_false_iff _ _ _).mpr (.inl hverify))]
    rfl

/-! ### The frame longer than the buffer -/

/-- A silence of more than IBT closes a buffer that holds a byte (R102). -/
theorem Holds.closes_of_silence {s : State} {F : List Byte} (h : Holds s F) (hb : s.build.Legal) (hne : F ≠ []) {now : Nat}
    (hsilence : s.build.ibt < elapsed s.build now s.fb.lastTs) : closes s.build s.fb.len now s.fb.lastTs = true := by
  have hpos := List.length_pos_of_ne_nil hne
  have hmax := lenMax_pos_of_legal hb
  have hcount := h.count
  exact (closes_iff _ _ _ _).mpr ⟨by omega, hsilence⟩

/-- Settles O29: the POLL is the wire row of the whole frame, which is longer than a Long one. -/
theorem overlongFrameIsUnknown : Obligations.OverlongFrameIsUnknown := by
  intro s F now hb h hover hsilence
  have ⟨_, _, hmin, _⟩ := hb
  have hlong : Config.longLen < F.length := lt_of_le_of_lt hmin hover
  have hcloses := h.closes_of_silence hb (List.ne_nil_of_length_pos (Nat.zero_lt_of_lt hover)) hsilence
  have hd : decodeView s.beginCycle.build (FrameView.ofBytes F) =
      .unknown (min F.length s.build.lenMax) .unrecognizedFrameShape := decodeView_of_longLen_lt hlong
  refine ⟨_, exec_eq _ s, ?_⟩
  rw [nextState_poll_eq_decodeWire h hb hcloses, nextState_decodeWire, emit_unknown hd nofun]
  exact ⟨rfl, rfl, rfl, rfl, rfl, rfl, rfl, rfl, rfl⟩

/-! ### The round trip -/

/-- The encoded frame as a Short frame (R134). -/
def encodedWire (a : EncArgs) : ShortWire := ShortWire.ofBytes (encodedFrame a).toList

theorem encodedWire_bytes (a : EncArgs) : (encodedWire a).bytes = (encodedFrame a).toList := rfl

theorem encodedFrame_toList (a : EncArgs) : (encodedFrame a).toList = encodedHead a ++ [encodedCsum a] := rfl

/-- The encoder's checksum byte is right: the checksum does not read its own byte (R89). -/
theorem encodedWire_csum (a : EncArgs) : (encodedWire a).csum = checksum (encodedWire a).bytes := by
  rw [encodedWire_bytes, encodedFrame_toList]
  exact checksumLaws.1 (encodedHead a) 0x00 (encodedCsum a)

theorem runAll_append (l m : List Instr) {s t : State} (h : runAll l s = some t) : runAll (l ++ m) s = runAll m t := by
  induction l generalizing s with
  | nil => rw [← Option.some.inj h, List.nil_append]
  | cons i l ih =>
    rw [runAll_cons] at h
    rw [List.cons_append, runAll_cons, ih h]

/-- Bytes received one per cycle, the last at time `last`, are held with that time in FB.LAST_TS. -/
theorem holds_receiveCycles_snoc {s : State} {F : List Byte} (h : Holds s F) (hb : s.build.Legal)
    (l : List (Byte × Nat)) (b : Byte) (last : Nat) :
    ∃ t, runAll (receiveCycles (l ++ [(b, last)])) s = some t ∧ Holds t (F ++ l.map Prod.fst ++ [b]) ∧
      t.fb.lastTs = sampleTs t.build last ∧ t.build = s.build := by
  obtain ⟨u, hrun, hheld, -, -, hbuild⟩ := h.receiveCycles l hb
  refine ⟨nextState (.rxByte b last none) u, ?_, hheld.nextState (hbuild ▸ hb) (.rxByte b last none), rfl, hbuild⟩
  rw [receiveCycles, List.map_append]
  exact (runAll_append _ _ hrun).trans (runAll_cons _ [] u)

/-- The POLL after the silence that follows a frame of the Short shape is the row of that frame. -/
theorem exec_poll_of_holds_short {s : State} {w : ShortWire} {now : Nat} (h : Holds s w.bytes) (hb : s.build.Legal)
    (hsilence : s.build.ibt < elapsed s.build now s.fb.lastTs) :
    exec (.poll now none none) s = exec (.shortFrame w) s := by
  rw [exec_eq, exec_eq, nextState_poll_eq_decodeWire h hb (h.closes_of_silence hb nofun hsilence), decodeWire_shortBytes]

/-- Settles O31: the block holds the encoded frame, whose POLL is the Short row with a right checksum. -/
theorem encodedFrameDecodesBack : Obligations.EncodedFrameDecodesBack := by
  intro s a stamps now last hb h hstamps hsilence
  have hheadLen : (encodedHead a).length = stamps.length := hstamps.symm
  have hzip : (encodedFrame a).toList.zip (stamps ++ [last]) = (encodedHead a).zip stamps ++ [(encodedCsum a, last)] := by
    rw [encodedFrame_toList, List.zip_append hheadLen]
    rfl
  obtain ⟨u, hrun, hheld, hlast, hbuild⟩ := holds_receiveCycles_snoc h hb ((encodedHead a).zip stamps) (encodedCsum a) last
  have hframe : Holds u (encodedWire a).bytes := by
    rwa [List.map_fst_zip hheadLen.le, List.nil_append, ← encodedFrame_toList] at hheld
  have hpoll : exec (.poll now none none) u = exec (.shortFrame (encodedWire a)) u :=
    exec_poll_of_holds_short hframe (hbuild ▸ hb) (by rwa [hlast, elapsed_sampleTs, hbuild])
  obtain ⟨t, hexec, hvalid, htag, -, herr, hpower, hcmd, -, -, hok, -, -, -, hev⟩ :=
    shortFrameDecodes u (encodedWire a) (.inr (encodedWire_csum a))
  refine ⟨t, ?_, hvalid, htag, herr, hok.mpr (encodedWire_csum a), hpower.trans (Nat.mul_comm _ _), hcmd, by rw [hev]⟩
  rw [hzip, runAll_append _ _ hrun, runAll, hpoll, hexec]
  rfl

/-! ### The error kinds never reported -/

/-- The error kinds of a reading the invariant allows (R108, R123, R150). -/
theorem decConsistent.err_possible {s : State} {d : DecReading} (h : decConsistent s d) :
    d.err ≠ .emptyFrame ∧ d.err ≠ .fieldOutOfRange ∧ (d.err = .checksumMismatch → s.build.verifyCsum = true) := by
  obtain ⟨-, -, hkind⟩ := h
  cases htag : d.tag with
  | short =>
    obtain ⟨-, herr, -⟩ := htag ▸ hkind
    simp [herr]
  | long =>
    obtain ⟨-, herr, -⟩ := htag ▸ hkind
    simp [herr]
  | unknown =>
    rw [htag] at hkind
    rcases hkind with ⟨herr, -⟩ | ⟨herr, -⟩ | ⟨herr, hverify, -⟩
    · simp [herr]
    · simp [herr]
    · simp [herr, hverify]

/-- A run keeps the invariant and the build. -/
theorem Inv.run {s : State} (h : Inv s) (n : Nat) : ∃ t, core.run n s = .next t ∧ Inv t ∧ t.build = s.build := by
  obtain ⟨t, hrun, ht⟩ := run_keeps invariantKept n s h
  obtain ⟨u, hrun', hbuild⟩ := buildNeverChanges n s
  obtain rfl : t = u := Host.Outcome.next.inj (hrun.symm.trans hrun')
  exact ⟨t, hrun, ht, hbuild⟩

/-- Settles O47: a run keeps the invariant, whose readings of DEC are consistent. -/
theorem impossibleErrorsNeverReported : Obligations.ImpossibleErrorsNeverReported := by
  intro n s hs
  obtain ⟨t, hrun, ht, hbuild⟩ := hs.run n
  exact ⟨t, hrun, fun d hd => hbuild ▸ (ht.decOne d hd).err_possible⟩

end Sys2Proof.Machine

/-!
PROOFS. The statements of 43_encoder.md: the frame ENCODE_SHORT builds (R134, R89), and the cycle it shares with POLL or RX_BYTE
(R140, R60).
-/

namespace Sys2Proof.Machine

/-! ### The frame built -/

/-- The sum of offsets 2 .. 14, of which only 2, 3, 8 and 9 are not constantly 0 (R89). -/
theorem encodedCsum_eq (a : EncArgs) : encodedCsum a = a.cmd + 0x0B + a.power + a.state := by
  have hlen : ¬ (encodedHead a).length < 3 := by simp [encodedHead]
  rw [encodedCsum, checksum_snoc, if_neg hlen]
  simp [sumFrom2, encodedHead, Config.shortField]

/-- The last byte of the encoded frame is its checksum (R89). -/
theorem rd8_encodedFrame_last (a : EncArgs) : rd8 (encodedFrame a).toList 15 = checksum (encodedFrame a).toList :=
  encodedWire_csum a

/-- Settles O9: the bytes are the encoder's layout with its checksum in closed form; the rest is `encodeOut` after `beginCycle`. -/
theorem encodeShortBuildsFrame : Obligations.EncodeShortBuildsFrame := by
  intro s a
  refine ⟨s.beginCycle.encodeOut a, exec_eq (.encodeShort a) s, ?_, rd8_encodedFrame_last a, rfl, rfl, rfl, .of_eq rfl rfl, rfl, rfl,
    rfl, rfl⟩
  rw [encodeOut_txFrame, encodedFrame_toList, encodedCsum_eq]
  rfl

/-! ### The company of other operations -/

/-- An instruction whose cycle is that of `j` with ENCODE_SHORT run last writes the elements of the receive path as `j` does, and builds
the frame that ENCODE_SHORT alone builds from reset (R60, R140). -/
theorem exec_of_nextState_eq_encodeOut {i j : Instr} {s : State} {a : EncArgs}
    (h : nextState i s = (nextState j s).encodeOut a) :
    ∃ t u, exec i s = .next t ∧ exec j s = .next u ∧
      t.fb = u.fb ∧ t.acc = u.acc ∧ t.dec = u.dec ∧ t.snap = u.snap ∧ SameOutside u t ∧
      t.ev = { u.ev with txValid := true } ∧
      ∃ v, exec (.encodeShort a) State.reset = .next v ∧ t.txFrame = v.txFrame :=
  ⟨(nextState j s).encodeOut a, nextState j s, (exec_eq i s).trans (congrArg _ h), exec_eq j s,
    encodeOut_fb a _, encodeOut_acc a _, encodeOut_dec a _, encodeOut_snap a _, ⟨encodeOut_build a _, encodeOut_inputs a _⟩,
    encodeOut_ev a _, _, exec_eq _ _, encodeOut_txFrame a _⟩

/-- Settles O10: in both cycles ENCODE_SHORT is the operation that runs last (R156). -/
theorem encodeSharesNothing : Obligations.EncodeSharesNothing :=
  fun _ _ _ _ _ => ⟨exec_of_nextState_eq_encodeOut rfl, exec_of_nextState_eq_encodeOut rfl⟩

end Sys2Proof.Machine

/-!
PROOFS. The statement of 49_host_reference.md: the host's decision table (R144, R145) and its range of power (R148).
-/

namespace Sys2Proof.Machine

/-! ### The decision table -/

/-- R145: the one row that sends nothing. -/
theorem directive_eq_none_iff {on : Bool} {observed : OpState} {level : Nat} :
    directive on observed level = none ↔ on = false ∧ observed = .off := by
  unfold directive
  split
  case h_1 => simp
  case h_2 => simp
  case h_3 hoff _ => simpa using hoff
  case h_4 => simp
  case h_5 => simp

/-- What the four rows that send have in common: the target alone chooses the power, and narrows the state code to two values. -/
theorem directive_eq_some {on : Bool} {observed : OpState} {level : Nat} {a : EncArgs}
    (h : directive on observed level = some a) :
    (on = false ∧ a.power = 10 ∧ (a.state = 0x02 ∨ a.state = 0x05)) ∨
      (on = true ∧ a.power = BitVec.ofNat 8 (level / 10) ∧ (a.state = 0x06 ∨ a.state = 0x08)) := by
  unfold directive at h
  split at h
  case h_1 => cases h
  case h_2 => cases h; exact .inl ⟨rfl, rfl, .inl rfl⟩
  case h_3 => cases h; exact .inl ⟨rfl, rfl, .inr rfl⟩
  case h_4 => cases h; exact .inr ⟨rfl, rfl, .inl rfl⟩
  case h_5 => cases h; exact .inr ⟨rfl, rfl, .inr rfl⟩

/-- Every state code the table sends is a row of CMD_MAP (R77). -/
theorem cmdMap_state_ne_unknown_of_directive {on : Bool} {observed : OpState} {level : Nat} {a : EncArgs}
    (h : directive on observed level = some a) : cmdMap a.state ≠ .unknown := by
  obtain ⟨-, -, hstate | hstate⟩ | ⟨-, -, hstate | hstate⟩ := directive_eq_some h <;> rw [hstate] <;> decide

/-- A level of 0 .. 100 divides to 0 .. 10, so its quotient fits enc_power (R148). -/
theorem toNat_power_of_directive {on : Bool} {observed : OpState} {level : Nat} {a : EncArgs} (hlevel : level ≤ 100)
    (h : directive on observed level = some a) : a.power.toNat = if on then level / 10 else 10 := by
  obtain ⟨rfl, hpower, -⟩ | ⟨rfl, hpower, -⟩ := directive_eq_some h
  · rw [hpower]; rfl
  · rw [hpower, BitVec.toNat_ofNat, if_pos rfl]
    omega

/-- Settles O50: the row that sends nothing, then the power and the state code of the rows that send. -/
theorem controllerDirectives : Obligations.ControllerDirectives := by
  intro on observed level hlevel
  refine ⟨directive_eq_none_iff, fun a h => ?_⟩
  have hpower := toNat_power_of_directive hlevel h
  refine ⟨?_, cmdMap_state_ne_unknown_of_directive h, fun hon => hpower.trans (if_pos hon)⟩
  rw [hpower]
  split <;> omega

end Sys2Proof.Machine

/-!
PROOFS. The statements of 60_exceptions.md: the order of a cycle's operations (R156). A cycle that carries POLL and RX_BYTE does to
the receive path and the decoded record what a cycle of each does in turn, and what the byte then writes is RX_BYTE's own rule.
-/

namespace Sys2Proof.Machine

/-! ### POLL, then RX_BYTE -/

/-- The byte that shares POLL's cycle is received as in a cycle of its own after it: the cycle that begins between the two ends
pulses and frees TX.FRAME, and writes nothing else the host or the receive path reads (R156, R42). -/
theorem nextState_poll_some (b : Byte) (now : Nat) (enc : Option EncArgs) (s : State) :
    (nextState (.poll now (some b) enc) s).fb = (nextState (.rxByte b now enc) (nextState (.poll now none enc) s)).fb ∧
      (nextState (.poll now (some b) enc) s).acc = (nextState (.rxByte b now enc) (nextState (.poll now none enc) s)).acc := by
  simp [nextState]

/-- POLL writes no cell of FB.BUF, whether it closes the buffer or not (R102). -/
theorem pollAt_buf (now : Nat) (s : State) : (s.pollAt now).fb.buf = s.fb.buf := by
  rcases pollAt_cases now s with ⟨-, hp⟩ | ⟨-, hp⟩ <;> simp [hp]

theorem nextState_poll_none_buf (now : Nat) (enc : Option EncArgs) (s : State) :
    (nextState (.poll now none enc) s).fb.buf = s.fb.buf :=
  (congrArg FB.buf (encodeOpt_fb enc _)).trans (pollAt_buf now s.beginCycle)

/-- DEC, SNAP and the pulses of a POLL's cycle do not depend on the byte that shares it (R63, R156). -/
theorem nextState_poll_decoded (now : Nat) (rx : Option Byte) (enc : Option EncArgs) (s : State) :
    (nextState (.poll now rx enc) s).dec = (nextState (.poll now none enc) s).dec ∧
      (nextState (.poll now rx enc) s).snap = (nextState (.poll now none enc) s).snap ∧
      (nextState (.poll now rx enc) s).ev = (nextState (.poll now none enc) s).ev := by
  simp [nextState]

/-- Settles O8: the byte's clauses are those of the RX_BYTE in the state that the POLL alone leaves. -/
theorem pollThenByteInOneCycle : Obligations.PollThenByteInOneCycle := by
  intro s b now enc
  obtain ⟨hfb, hacc⟩ := nextState_poll_some b now enc s
  obtain ⟨hdec, hsnap, hev⟩ := nextState_poll_decoded now (some b) enc s
  obtain ⟨v, hv, hcell, hframe, hvacc, hlen, hnbytes, hbyte, hts, -⟩ :=
    rxByteAppends (nextState (.poll now none enc) s) b now enc
  obtain rfl := (exec_next_iff _ _ v).mp hv
  rw [nextState_build] at hcell hframe hlen hts
  rw [nextState_poll_none_buf] at hframe
  refine ⟨_, _, exec_eq _ s, exec_eq _ s, hdec, hsnap, hev, ⟨nextState_build _ s, by simp [nextState]⟩, ?_⟩
  rw [hfb, hacc]
  refine ⟨hcell, hframe, hvacc, hlen, hnbytes, hbyte, hts, fun hlegal hcloses => ?_⟩
  obtain ⟨hvalid, hempty, hclear⟩ := nextState_poll_of_closes enc hcloses
  obtain ⟨-, -, hmin, hmax⟩ := hlegal
  have hdepth : 0 < s.build.bufDepth := by omega
  rw [hempty] at hcell hvacc hlen
  exact ⟨hlen.trans (if_pos (hdepth.trans_le hmax)), hvacc.trans hclear, hcell hdepth, hev ▸ hvalid⟩

/-! ### POLL, then RX_BYTE, then ENCODE_SHORT -/

/-- Settles O11: the byte follows the POLL, and ENCODE_SHORT writes only TX.FRAME and its own pulse. -/
theorem cycleRunsInOrder : Obligations.CycleRunsInOrder := by
  intro s b now a
  obtain ⟨hfb, hacc⟩ := nextState_poll_some b now none s
  obtain ⟨hdec, hsnap, hev⟩ := nextState_poll_decoded now (some b) none s
  have hencode : nextState (.poll now (some b) (some a)) s = (nextState (.poll now (some b) none) s).encodeOut a := rfl
  refine ⟨_, _, _, _, (exec_eq _ s).trans (congrArg _ hencode), exec_eq _ s, exec_eq _ _, exec_eq _ _, hfb, hacc, hdec, hsnap, rfl,
    ?_, ?_, rfl⟩ <;> rw [encodeOut_ev, hev]

end Sys2Proof.Machine

/-!
PROOFS. The statements of 70_reset_and_hazards.md: the RESET cycle (R168), the readings that are absent until a frame is decoded
(R170, R177), and the poll period that closes a frame within its silence (R172, R174).
-/

namespace Sys2Proof.Machine

/-! ### The RESET cycle -/

/-- Settles O2: the next state of RESET is `resetCycle`, which keeps the build and the coming cycles. -/
theorem resetCycleCompletes : Obligations.ResetCycleCompletes :=
  fun s => ⟨s.resetCycle, exec_eq .reset s, resetValues_resetCycle s, rfl, rfl⟩

/-! ### The readings -/

/-- After an emission the decoded frame is present, and the Short fields and the snapshot with a frame of their class; otherwise these
two are as absent or as present as before (R177). -/
theorem readings_emit (v : FrameView) (s : State) :
    ∃ d, (s.emit v).readDec = some d ∧ d.short = (s.emit v).readShort ∧
      (d.tag = .short → ∃ f, (s.emit v).readShort = some f) ∧ (d.tag ≠ .short → (s.emit v).readShort = s.readShort) ∧
      (d.tag = .long → ∃ f, (s.emit v).readSnap = some f) ∧ (d.tag ≠ .long → (s.emit v).readSnap = s.readSnap) := by
  refine ⟨_, readDec_emit v s, rfl, ?_⟩
  rw [← and_assoc]
  constructor
  · rcases readShort_emit_cases v s with ⟨f, hd, hread⟩ | ⟨htag, hsame⟩
    · exact ⟨fun _ => ⟨f, hread⟩, fun hne => absurd (by rw [hd]; rfl) hne⟩
    · exact ⟨fun heq => absurd heq htag, fun _ => hsame⟩
  · rcases readSnap_emit_cases v s with ⟨f, hd, hread⟩ | ⟨htag, hsame⟩
    · exact ⟨fun _ => ⟨f, hread⟩, fun hne => absurd (by rw [hd]; rfl) hne⟩
    · exact ⟨fun heq => absurd heq htag, fun _ => hsame⟩

/-- Settles O53: the readings depend on DEC and SNAP alone, which a cycle takes from its emission, if any, or leaves. -/
theorem readingsAreAbsentUntilDecoded : Obligations.ReadingsAreAbsentUntilDecoded := by
  refine ⟨fun i s hi => ⟨_, exec_eq i s, fun he => ?_, fun he => ?_⟩, fun s => ⟨_, exec_eq .reset s, rfl, rfl, rfl⟩⟩
  · obtain ⟨v, hdec, hsnap, -⟩ := nextState_of_emitsFrame he
    rw [readDec_congr hdec, readShort_congr hdec, readSnap_congr hsnap]
    exact readings_emit v s
  · obtain ⟨hdec, hsnap, -⟩ := nextState_of_not_emitsFrame hi he
    exact ⟨readDec_congr hdec, readShort_congr hdec, readSnap_congr hsnap⟩

/-- A list of instructions that emits nothing runs to its end and leaves DEC and SNAP (R41). -/
theorem runAll_of_emitsNothing (l : List Instr) {s : State} (h : emitsNothing l s) :
    ∃ t, runAll l s = some t ∧ t.dec = s.dec ∧ t.snap = s.snap := by
  induction l generalizing s with
  | nil => exact ⟨s, rfl, rfl, rfl⟩
  | cons i l ih =>
    obtain ⟨hwrites, hrest⟩ := h
    obtain ⟨u, hu, hdec, hsnap⟩ := decAndSnapHold i s hwrites
    obtain ⟨t, hrun, hdec', hsnap'⟩ := ih (hrest u hu)
    obtain rfl := (exec_next_iff i s u).mp hu
    exact ⟨t, (runAll_cons i l s).trans hrun, hdec'.trans hdec, hsnap'.trans hsnap⟩

/-- Settles O49: DEC and SNAP stand as reset left them, where every reading is absent. -/
theorem nothingDecodedBeforePoll : Obligations.NothingDecodedBeforePoll := by
  intro l hl
  obtain ⟨t, hrun, hdec, hsnap⟩ := runAll_of_emitsNothing l hl
  exact ⟨t, hrun, readDec_congr hdec, readShort_congr hdec, readSnap_congr hsnap⟩

/-! ### The poll period -/

theorem pollsAt_succ (first period k : Nat) :
    pollsAt first period (k + 1) = pollsAt first period k ++ [.poll (first + k * period) none none] := by
  simp [pollsAt, List.range_succ]

/-- A list that emits nothing emits nothing either with one more instruction that does not write DEC. -/
theorem emitsNothing_snoc (l : List Instr) {i : Instr} {s u : State} (hl : emitsNothing l s) (hrun : runAll l s = some u)
    (hi : writesDec u i = false) : emitsNothing (l ++ [i]) s := by
  induction l generalizing s with
  | nil =>
    obtain rfl := Option.some.inj hrun
    exact ⟨hi, fun _ _ => trivial⟩
  | cons j l ih =>
    obtain ⟨hwrites, hrest⟩ := hl
    refine ⟨hwrites, fun t ht => ih (hrest t ht) ?_⟩
    rwa [(exec_next_iff j s t).mp ht, ← runAll_cons]

/-- A POLL that closes nothing, alone in its cycle, only begins the cycle (R103). -/
theorem nextState_poll_of_closes_eq_false {s : State} {now : Nat} (h : closes s.build s.fb.len now s.fb.lastTs = false) :
    nextState (.poll now none none) s = s.beginCycle :=
  pollAt_of_closes_eq_false (s := s.beginCycle) h

/-- Polls none of which would close the buffer emit nothing and leave the frame in assembly as it is (R103). -/
theorem runAll_pollsAt_of_closes_eq_false {s : State} {first period : Nat} (k : Nat)
    (h : ∀ j < k, closes s.build s.fb.len (first + j * period) s.fb.lastTs = false) :
    ∃ u, emitsNothing (pollsAt first period k) s ∧ runAll (pollsAt first period k) s = some u ∧
      u.fb = s.fb ∧ u.acc = s.acc ∧ u.build = s.build := by
  induction k with
  | zero => exact ⟨s, trivial, rfl, rfl, rfl, rfl⟩
  | succ k ih =>
    obtain ⟨u, hnothing, hrun, hfb, hacc, hbuild⟩ := ih fun j hj => h j (hj.trans k.lt_succ_self)
    have hcloses : closes u.build u.fb.len (first + k * period) u.fb.lastTs = false := by
      rw [hbuild, hfb]
      exact h k k.lt_succ_self
    rw [pollsAt_succ]
    refine ⟨u.beginCycle, emitsNothing_snoc _ hnothing hrun hcloses, ?_, hfb, hacc, hbuild⟩
    rw [runAll_append _ _ hrun, runAll_cons, nextState_poll_of_closes_eq_false hcloses]
    rfl

/-- Of times a period apart, the first of them at most a period after a deadline, one is the first past the deadline, and it comes at
most a period after it. -/
theorem exists_first_past {first period deadline : Nat} (hperiod : 0 < period) (hfirst : first ≤ deadline + period) :
    ∃ k, deadline < first + k * period ∧ first + k * period ≤ deadline + period ∧
      ∀ j < k, first + j * period ≤ deadline := by
  have hle := Nat.div_mul_le_self (deadline + period - first) period
  have hlt := Nat.lt_div_mul_add (a := deadline + period - first) hperiod
  refine ⟨(deadline + period - first) / period, by omega, by omega, fun j hj => ?_⟩
  have hnext := Nat.mul_le_mul_right period (Nat.succ_le_of_lt hj)
  rw [Nat.succ_mul] at hnext
  omega

/-- The time since the last byte is measured as it is for less than 2^TS_W, across a wrap of the clock too (R101). -/
theorem elapsed_sampleTs_of_le {b : Build} {last now : Nat} (hle : last ≤ now) (hlt : now - last < 2 ^ b.tsW) :
    elapsed b now (sampleTs b last) = now - last := by
  obtain ⟨d, rfl⟩ := Nat.exists_eq_add_of_le hle
  rw [Nat.add_sub_cancel_left] at hlt ⊢
  rw [elapsed_sampleTs, elapsed_add_left b last hlt]

/-- Settles O24: the k-th poll is the first more than IBT after the last byte. It comes at most IBT and a period after that byte, so
within the silence and before the clock wraps. -/
theorem pollPeriodSeparatesFrames : Obligations.PollPeriodSeparatesFrames := by
  intro s F t1 first period gap hb h hne hlast hperiod hmeets hwrap hafter hfirst
  obtain ⟨k, hpast, hwithin, hbefore⟩ := exists_first_past (first := first) (deadline := t1 + s.build.ibt) hperiod
    (by omega)
  have helapsed : ∀ j, first + j * period ≤ t1 + s.build.ibt + period →
      elapsed s.build (first + j * period) s.fb.lastTs = first + j * period - t1 :=
    fun j hj => hlast ▸ elapsed_sampleTs_of_le (by omega) (by omega)
  have hquiet : ∀ j < k, closes s.build s.fb.len (first + j * period) s.fb.lastTs = false := fun j hj => by
    have hearly := hbefore j hj
    rw [closes_eq_false_iff, helapsed j (by omega)]
    omega
  obtain ⟨u, hnothing, hrun, hfb, hacc, hbuild⟩ := runAll_pollsAt_of_closes_eq_false k hquiet
  have hheld : Holds u F := h.congr hfb hacc hbuild
  have hemits : closes u.build u.fb.len (first + k * period) u.fb.lastTs = true := by
    refine hheld.closes_of_silence (hbuild ▸ hb) hne ?_
    rw [hbuild, hfb, helapsed k hwithin]
    omega
  have hrow := nextState_poll_eq_decodeWire hheld (hbuild ▸ hb) hemits
  refine ⟨k, u, _, by omega, by omega, hnothing, hrun, exec_eq _ u, (nextState_poll_of_closes none hemits).1, ?_, ?_⟩
  · rw [exec_eq, hrow]
  · rw [pollsAt_succ, runAll_append _ _ hrun, runAll_cons]
    rfl

end Sys2Proof.Machine
